-- ==== Sys2Proof/Word.lean ====
section
/-! DEFINITION. The word types of the SK-9 model and the numbers that name its parts (R6, R8, R15). -/
namespace Sys2Proof

/-- A register of the management space: 32 bits (R6). -/
abbrev Word := BitVec 32
/-- One byte of the module physical space (R173). -/
abbrev Byte := BitVec 8

/-- Tensor die TD0-TD11 (R15). -/
abbrev DieId := Fin 12
/-- Caller C0-C3 of a die (R15). -/
abbrev CallerId := Fin 4
/-- Context slot 0-63 (R144). -/
abbrev CtxId := Fin 64
/-- Sync object S0-S4095 (R134). -/
abbrev ObjId := Fin 4096
/-- Anchor cell 0-255 (R51). -/
abbrev CellId := Fin 256
/-- Host command channel 0-3 (R426). -/
abbrev ChanId := Fin 4
/-- External port X0-X15 (R15). -/
abbrev XPort := Fin 16
/-- Memory stack M0-M31 (R15). -/
abbrev StackId := Fin 32
/-- Photonic base die PB0-PB3 (R15). -/
abbrev BaseId := Fin 4
/-- Light bank LB0-LB7 (R15). -/
abbrev BankId := Fin 8
/-- Lane L0-L17 of a port, and the line (wavelength) of the same number (R246, R287). -/
abbrev LaneId := Fin 18
/-- Module number 0-7 (R356). -/
abbrev ModId := Fin 8
/-- An optical port with a ring block (R280). 0-95 tensor-die ports 8d+p, 96-111 X0-X15, 112-115 G0-G3,
116-119 the base-die ends of the base-die links, 120-127 the reference positions, 128-131 the hub ends of the links. -/
abbrev PortId := Fin 132
/-- A link with flits of its own: 0-15 the external ports, 16 the Pofold link (R420). -/
abbrev LinkId := Fin 17

end Sys2Proof
end

