-- ==== Sys2Proof/Syntax.lean ====
section
/-! DEFINITION. The commands of the SK-9: one constructor of `Instr` per row of the table of operations and events.
An operand is what the row's event brings with it from outside the state: a message's fields, a measured quantity, the
outcome of an analogue search. Where a row is a host's write of a register it carries the message's header `HostHdr`. -/
namespace Sys2Proof

/-- What every host-to-module message carries besides its kind and argument (R426): the channel of its flit, the CH
field, the TAG, NOCPL, FENCE, the reserved header bits, and the path it came on (R434). -/
structure HostHdr where
  ch : ChanId
  chField : ChanId
  tag : BitVec 16
  nocpl : Bool
  fence : Bool
  rsvd : BitVec 8
  x15 : Bool
deriving DecidableEq, Repr

/-- The content of one event on a source's error line (R473, R476, R480, R481). -/
structure FaultReport where
  source : Fin 32
  event : BitVec 8
  cls : Fin 3
  subtype : BitVec 4
  inst : BitVec 16
  detail : BitVec 24
  space : BitVec 3 := 0
  addr : BitVec 48 := 0
  master : BitVec 4 := 15
  access : BitVec 3 := 0
deriving DecidableEq, Repr

/-- Kinds of sync-object message that a Caller sends and the hub can refuse (R137, R142). -/
inductive SyncKind where
  | signal | waitreg | read
deriving DecidableEq, Repr

/-- The four kinds of guest sync message (R137, R234). -/
inductive GuestSync where
  | signal (inc : BitVec 8)
  | waitreg (thr : BitVec 20)
  | waitcancel
  | read
deriving DecidableEq, Repr

/-- A walk's answer (R180): the leaf, or one fault code of R198 (1 NOT_VALID, 3 FORMAT, 8 DIR_ECC). -/
inductive WalkResult where
  | ok (ppn : BitVec 27) (rd wr : Bool)
  | fault (code : Fin 16)
deriving DecidableEq, Repr

/-- How the write-data CRC failure of R167 ended: within the four retries, after the retraining, or not at all. -/
inductive CrcOutcome where
  | retried | retrained | failed
deriving DecidableEq, Repr

/-- Outcome of training a stack (R162): the SPEED reached, or failure. -/
inductive TrainOutcome where
  | speed2 | speed1 | failed
deriving DecidableEq, Repr

/-- One measurement of a lane (R268): the rings measured, with code and resonance in pm for each; the level table and PDC
fitted for the transmitter; and for the receiver the phase entries in 1/32 UI and the equaliser coefficients by source position,
and mean and spread of each eye level in 1/16 ADC code (R267). -/
structure CalMeas where
  lane : LaneId
  tx : Bool
  rx : Bool
  txCode : Nat
  rxCode : Nat
  txPm : Int
  rxPm : Int
  levels : List Nat
  pdc : Nat
  phases : List (Nat × Int)
  taps : List (Nat × List Int)
  eyes : List (BitVec 16 × BitVec 16)
deriving DecidableEq, Repr

/-- The 20 bits of a lane at its comma positions, eight at 1,040-bit spacing or four expected ones (R314). -/
structure LaneCommas where
  lane : LaneId
  seen : List (BitVec 20)
deriving DecidableEq, Repr

/-- Commas of a lane that aligns, with its skew in picoseconds (R314). -/
structure LaneAlign extends LaneCommas where
  skewPs : Nat
deriving DecidableEq, Repr

/-- The symbols of a Pofold lane at four expected K.SYNC positions (R411). -/
structure LaneSyncs where
  lane : Fin 8
  seen : List (BitVec 18)
deriving DecidableEq, Repr

/-- An exit burst as received (R414): its 128 symbols by lane, and the greatest skew between lanes in picoseconds. -/
structure ExitBurst where
  lanes : List (Fin 8 × List (BitVec 18))
  skewPs : Nat
deriving DecidableEq, Repr

/-- What a start finds beside the guest site: the PUF power-up response (R456), and the bytes that the baseboard has programmed
into the flash before it (R581). -/
structure StartFound where
  puf : List Byte
  flashed : List (BitVec 25 × Byte)
deriving DecidableEq, Repr

/-- What the receivers of one transmitting port report on one lane for R291: smallest eye opening, corrected symbols of
the last 2^24, symbols of the last 100 ms. -/
structure SmfObs where
  port : PortId
  eye : Nat
  corr : Nat
  syms : Nat
deriving DecidableEq, Repr

/-- The content of an ADVERTISE message (R344). -/
structure Advert where
  have_ : Bool
  fecMin : Bool
  modeMax : Fin 4
  modNum : ModId
  txSet : BitVec 18
  rxNrz : BitVec 18
  rxPam4 : BitVec 18
  session : BitVec 32
  held : BitVec 32
  reqPool : Nat
  rspPool : Nat
deriving DecidableEq, Repr

/-- The content of a CONFIRM message (R336, R345): selected mode, FEC, the two maps as the sender names its own
transmit and receive direction, and the resume flag. -/
structure Confirm where
  mode : Fin 2
  strong : Bool
  txMap : BitVec 18
  rxMap : BitVec 18
  resume : Bool
deriving DecidableEq, Repr

/-- Identity of a mirror-compare hash (R382). -/
structure HashId where
  ctx : CtxId
  die : DieId
  caller : CallerId
  step : BitVec 16
  cmpSeq : BitVec 16
deriving DecidableEq, Repr

/-- A HASH record (R383). -/
structure HashRec where
  id : HashId
  pc : BitVec 24
  layer : BitVec 16
  operator : BitVec 16
  hash : BitVec 64
deriving DecidableEq, Repr

/-- Causes of a retrain of an external link (R340). -/
inductive RetrainCause where
  | eighthReplay | protocol | widthLimit | message
deriving DecidableEq, Repr

/-- Causes of a link down (R341, R351): the codes 1 to 6 of LNK_STATE.CAUSE. -/
inductive DownCause where
  | retrains | dark | lanes | ctl | reneg | received
deriving DecidableEq, Repr

/-- Causes of a host-link reset (R424, R436): the codes 1 to 4 of HLK_STATE.CAUSE. -/
inductive HlkCause where
  | retrains | resetBlock | ctlReset | noKsync
deriving DecidableEq, Repr

/-- Causes of a broken sensor (R499, R522). -/
inductive SensorCause where
  | range | stuck | selfcheck | disagree
deriving DecidableEq, Repr

/-- How a restoration's ring search and margin tests ended (R514, R518). -/
inductive RestoreOutcome where
  | allUp | portFailed | domainFault
deriving DecidableEq, Repr

/-- A class 4 or class 5 request at the ledger (R209, R212, R214): requester number (0-11 a die's movers, 12-27 an
external port's inbound stream, 28 the guest, 29 the hub) and the resources its grant needs. -/
structure LedReq where
  cls5 : Bool
  requester : Nat
  input : Option Nat
  output : Option Nat
  bond : Option (DieId × Nat)
  stack : Option (StackId × Nat)
deriving DecidableEq, Repr

/-- What a start phase found (R442, R443): the dies, base dies and stacks that failed it, and for phase 4 the stacks
that trained at the lower speed; the ports that failed: reference positions at the mesh self-test of phase 4, any port at its
margin test in phase 7; for phase 1 the slots, A and B, of which a section could not be read (R453). Bit masks by number. -/
structure PhaseFound where
  dieMask : BitVec 12
  baseMask : BitVec 4
  stackMask : BitVec 32
  slowMask : BitVec 32
  portMask : BitVec 132
  readFail : BitVec 2
deriving DecidableEq, Repr

/-- The requester of a register access (R557): a host channel, the baseboard management controller, the core. -/
inductive Requester where
  | host (ch : ChanId)
  | i3c
  | core
deriving DecidableEq, Repr

/-- The commands: one constructor per row of spec/opcode_table.json, in its order. -/
inductive Instr where
  /-- REG_RD (R427): one register. -/
  | regRd (h : HostHdr) (addr : Word)
  /-- REG_WR (R427). -/
  | regWr (h : HostHdr) (addr value : Word)
  /-- REG_WRB (R427, R562): LEN data bytes. -/
  | regWrb (h : HostHdr) (addr : Word) (data : List Byte)
  /-- MEM_RD (R427): PA and lines - 1. -/
  | memRd (h : HostHdr) (pa : BitVec 48) (linesM1 : Fin 16)
  /-- MEM_WR (R427). -/
  | memWr (h : HostHdr) (pa : BitVec 48) (data : List Byte)
  /-- LOAD (R145). -/
  | load (h : HostHdr) (c : CtxId)
  /-- UNLOAD (R145). -/
  | unload (h : HostHdr) (c : CtxId)
  /-- START_STEP (R146): the downbeat or 0, and the optional input (bytes 0-7 its PA). -/
  | startStep (h : HostHdr) (c : CtxId) (downbeat : BitVec 64) (data : List Byte)
  /-- RUN (R147). -/
  | run (h : HostHdr) (c : CtxId)
  /-- PREEMPT (R149). -/
  | preempt (h : HostHdr) (c : CtxId)
  /-- RESUME (R145, R151). -/
  | resume (h : HostHdr) (c : CtxId)
  /-- SAVE (R152): area base and, in the data, the half size. -/
  | save (h : HostHdr) (c : CtxId) (base : BitVec 48) (data : List Byte)
  /-- RESTORE (R155). -/
  | restore (h : HostHdr) (c : CtxId) (base : BitVec 48) (data : List Byte)
  /-- SAVE_COMMIT (R154, R156): the save's writes were all acknowledged, or one of them failed. -/
  | saveCommit (c : CtxId) (acked : Bool)
  /-- RESTORE_COMMIT (R155). -/
  | restoreCommit (c : CtxId)
  /-- FIGURE_FETCH (R114): the fetch of the figure `ahead` places after PC completes; 0 is the next to launch. -/
  | figureFetch (d : DieId) (k : CallerId) (ahead : Fin 5)
  /-- MATMUL (R74): `entropy` is the draw of the hub's entropy source that R59 makes under SR_ENTROPY. -/
  | matmul (d : DieId) (k : CallerId) (entropy : BitVec 64)
  /-- VECMAP (R123). -/
  | vecmap (d : DieId) (k : CallerId)
  /-- MOVE (R188). -/
  | move (d : DieId) (k : CallerId)
  /-- STREAM (R191). -/
  | stream (d : DieId) (k : CallerId)
  /-- SEND (R125). -/
  | send (d : DieId) (k : CallerId)
  /-- SAMPLE (R93): `entropy` as for MATMUL, for an entropy seed (R65). -/
  | sample (d : DieId) (k : CallerId) (entropy : BitVec 64)
  /-- WAIT (R127). -/
  | wait (d : DieId) (k : CallerId)
  /-- SIGNAL (R117). -/
  | signal (d : DieId) (k : CallerId)
  /-- SKIP_IF (R131). -/
  | skipIf (d : DieId) (k : CallerId)
  /-- HALT (R146). -/
  | halt (d : DieId) (k : CallerId)
  /-- FIGURE_ACK (R117): `muBusy` and `vuBusy` are the unit-beats that R523 counted for the figure. -/
  | figureAck (d : DieId) (k : CallerId) (muBusy vuBusy : Nat)
  /-- CONTEXT_SWITCH (R148). -/
  | contextSwitch (d : DieId) (k : CallerId)
  /-- PREEMPT_COMPLETE (R149). -/
  | preemptComplete (c : CtxId)
  /-- STEP_END (R146). -/
  | stepEnd (c : CtxId)
  /-- SYNC_SIGNAL (R135): object, increment, context, sending Caller. -/
  | syncSignal (obj : ObjId) (inc : BitVec 8) (c : CtxId) (d : DieId) (k : CallerId)
  /-- WAITREG (R138). -/
  | waitreg (obj : ObjId) (thr : BitVec 20) (c : CtxId) (d : DieId) (k : CallerId)
  /-- WAITCANCEL (R139). -/
  | waitcancel (obj : ObjId) (d : DieId) (k : CallerId)
  /-- READ (R132). -/
  | read (obj : ObjId) (c : CtxId) (d : DieId) (k : CallerId)
  /-- SYNC_RELEASE (R138). -/
  | syncRelease (obj : ObjId) (c : CtxId) (d : DieId) (k : CallerId)
  /-- VALUE (R131). -/
  | value (obj : ObjId) (c : CtxId) (d : DieId) (k : CallerId) (x : BitVec 20)
  /-- SYNC_REFUSAL (R139). -/
  | syncRefusal (kind : SyncKind) (obj : ObjId) (c : CtxId) (d : DieId) (k : CallerId)
  /-- HUB_SYNCVAL (R135, R141). -/
  | hubSyncval (h : HostHdr) (obj : ObjId) (v : Word)
  /-- HUB_SYNCCFG (R141). -/
  | hubSynccfg (h : HostHdr) (obj : ObjId) (v : Word)
  /-- REMOTE_SIGNAL (R143, R323). -/
  | remoteSignal (x : XPort) (m : ModId) (tag : BitVec 16) (obj : ObjId) (inc : BitVec 8) (c : CtxId)
  /-- SIG_ACK (R143, R323). -/
  | sigAck (x : XPort) (tag : BitVec 16) (status : BitVec 8)
  /-- POST (R52): the sender is Caller `k` of die `d` for context `c`. -/
  | post (cell : CellId) (tag : BitVec 48) (index count : BitVec 8) (v : BitVec 32) (c : CtxId) (d : DieId) (k : CallerId)
  /-- RESULT (R54) at die `d`. -/
  | result (cell : CellId) (tag : BitVec 48) (v : BitVec 32) (d : DieId)
  /-- ANCHOR_RELEASE (R52). -/
  | anchorRelease (cell : CellId) (tag : BitVec 48) (index : BitVec 8) (c : CtxId) (d : DieId) (k : CallerId)
  /-- HUB_ACELL_FREE (R55). -/
  | hubAcellFree (h : HostHdr) (v : Word)
  /-- WIDE_PARTIAL (R57): the flit payload of a PARTIAL entry, taken by the receiving figure of die `d`. -/
  | widePartial (d : DieId) (p : Fin 8) (entry : BitVec 12) (payload : List Byte)
  /-- A_POST (R323). -/
  | aPost (x : XPort) (m : ModId) (cell : CellId) (tag : BitVec 48) (index count : BitVec 8) (v : BitVec 32)
  /-- A_REL (R323). -/
  | aRel (x : XPort) (m : ModId) (cell : CellId) (tag : BitVec 48) (index : BitVec 8)
  /-- A_RES (R323). -/
  | aRes (x : XPort) (cell : CellId) (tag : BitVec 48) (v : BitVec 32)
  /-- SEGMENT_ISSUE (R190). -/
  | segmentIssue (d : DieId) (k : CallerId)
  /-- SEGMENT_COMPLETE (R193): the segment, and an in-flight fault code of R198 that the far side reported. -/
  | segmentComplete (d : DieId) (k : CallerId) (c : CtxId) (seg : Nat) (fault : Option (Fin 16))
  /-- WALK_REQUEST (R180): TLB 0-11 of a die, 12-43 of controller j of PBk as 12 + 8k + j. -/
  | walkRequest (tlb : Fin 44) (c : CtxId) (va : BitVec 48)
  /-- WALK_REPLY (R182). -/
  | walkReply (tlb : Fin 44) (c : CtxId) (va : BitVec 48) (r : WalkResult)
  /-- HUB_CTXPTR1 (R184). -/
  | hubCtxptr1 (h : HostHdr) (c : CtxId) (v : Word)
  /-- TLB_INVALIDATE (R185): the value written to HUB_TLBINV1. -/
  | tlbInvalidate (h : HostHdr) (v : Word)
  /-- TLB_INVALIDATE_DONE (R185). -/
  | tlbInvalidateDone
  /-- STACK_REQUEST (R192): requester 0-11 a die, 14 the hub, 15 another module (R539). -/
  | stackRequest (requester : Fin 16) (st : StackId) (offset : BitVec 36) (bytes : Nat)
  /-- WRITE_CRC_FAIL (R167) on a stack, for a write segment of a Caller when one made the write. -/
  | writeCrcFail (st : StackId) (o : CrcOutcome) (seg : Option (DieId × CallerId × CtxId × Nat))
  /-- PATROL_SCRUB (R166) of one line. -/
  | patrolScrub (st : StackId) (line : Nat)
  /-- STACK_CATASTROPHIC_TEMP (R168). -/
  | stackCatastrophicTemp (st : StackId)
  /-- STACK_RETRAIN (R169): the value written to PB_MEMCTL, and how the training ends. -/
  | stackRetrain (h : HostHdr) (st : StackId) (v : Word) (o : TrainOutcome)
  /-- ZEROING_DONE (R169). -/
  | zeroingDone (st : StackId)
  /-- RD_REQ (R194, R323). -/
  | rdReq (x : XPort) (m : ModId) (tag : BitVec 16) (pa : BitVec 48) (len : Nat)
  /-- WR_REQ (R194, R323, R377). -/
  | wrReq (x : XPort) (m : ModId) (tag : BitVec 16) (pa : BitVec 48) (data : List Byte)
  /-- RD_DATA (R323). -/
  | rdData (x : XPort) (tag : BitVec 16) (status : BitVec 8) (data : List Byte)
  /-- WR_ACK (R323). -/
  | wrAck (x : XPort) (tag : BitVec 16) (status : BitVec 8)
  /-- SRAM_INIT_DONE (R89). -/
  | sramInitDone (d : DieId)
  /-- LANDING_WRITE (R99): the oldest writable flit of the port's landing buffer. -/
  | landingWrite (d : DieId) (p : Fin 8)
  /-- SLOT_START (R204). -/
  | slotStart
  /-- LEDGER_REQUEST (R214). -/
  | ledgerRequest (r : LedReq)
  /-- BURST_RECEIVE (R347): source mesh position, receiving tensor-die port, lock confirmed, and the levels that the slicers read
  of the burst by lane. -/
  | burstReceive (src : Fin 128) (d : DieId) (p : Fin 8) (lock : Bool) (lanes : List (Fin 18 × List Nat))
  /-- IACK (R348). -/
  | iack (src : Fin 128) (split : BitVec 12) (die : DieId) (ack : BitVec 16) (bitmap : BitVec 32)
  /-- IACK_TIMEOUT (R349) of the pair of a source position and a destination die or split entry. -/
  | iackTimeout (src : Fin 128) (split : BitVec 12) (die : DieId)
  /-- PLAN_LOAD (R219). -/
  | planLoad (h : HostHdr)
  /-- PLAN_CHECK_DONE (R219). -/
  | planCheckDone
  /-- PLAN_SWITCH_REQUEST (R220). -/
  | planSwitchRequest (h : HostHdr)
  /-- PLAN_SWITCH (R220). -/
  | planSwitch
  /-- MESH_ELEMENT_FAIL (R228). -/
  | meshElementFail (e : Fin 832)
  /-- MESH_REROUTE_DONE (R228). -/
  | meshRerouteDone
  /-- GUEST_MEMORY_REQUEST (R233): a read of `len` bytes, or a write of `data`. -/
  | guestMemoryRequest (wr : Bool) (pa : BitVec 48) (len : Nat) (data : List Byte)
  /-- GUEST_SYNC_MESSAGE (R234); the waiter entry 48-63 of the guest that a wait names. -/
  | guestSyncMessage (kind : GuestSync) (obj : ObjId) (slot : Fin 16)
  /-- GUEST_RESET (R236). -/
  | guestReset (h : HostHdr)
  /-- GUEST_RESET_RELEASE (R232): the nonce the hub sends. -/
  | guestResetRelease (h : HostHdr) (nonce : BitVec 384)
  /-- ATTESTATION_REPORT (R232): measurement, public key, signature; `formed` when its format holds. -/
  | attestationReport (formed : Bool) (meas : BitVec 384) (key : List Byte) (sig : BitVec 768)
  /-- ATTESTATION_TIMEOUT (R232). -/
  | attestationTimeout
  /-- GFW_OPEN (R232). -/
  | gfwOpen (h : HostHdr)
  /-- GFW_CLOSE (R232). -/
  | gfwClose (h : HostHdr)
  /-- USABLE_SET_CHANGE (R247): a lane enters or leaves one of a port's usable sets. -/
  | usableSetChange (p : PortId) (tx : Bool) (l : LaneId) (enter : Bool)
  /-- MF_UPDATE (R254): smallest eye opening; of a port whose symbols no command brings, corrected symbols C and the symbols of the
  last 100 ms. -/
  | mfUpdate (p : PortId) (l : LaneId) (eye corr syms : Nat)
  /-- LOCK_UPDATE (R261): the code the loop arrives at, and whether the error stayed within 10 pm for 50 us. -/
  | lockUpdate (p : PortId) (tx : Bool) (l : LaneId) (code : BitVec 12) (settled : Bool)
  /-- LOCK_LOSS (R262). -/
  | lockLoss (p : PortId) (tx : Bool) (l : LaneId)
  /-- RING_HOP (R256): the code at which the ring is found again. -/
  | ringHop (p : PortId) (tx : Bool) (l : LaneId) (found : BitVec 12)
  /-- CLASS_CHANGE (R263) for the eight ports of a die. -/
  | classChange (d : DieId) (cls : Fin 8)
  /-- FF_TICK (R263) of one port. -/
  | ffTick (p : PortId)
  /-- FF_LEARN (R263) of one ring. -/
  | ffLearn (p : PortId) (tx : Bool) (l : LaneId)
  /-- FF_SUSPEND_END (R264). -/
  | ffSuspendEnd (p : PortId)
  /-- CAL_TURN_START (R266, R267): the module-wide turn, or the turn of one external port. -/
  | calTurnStart (x : Option XPort)
  /-- CAL_MEASUREMENT_DONE (R269) of a lane. -/
  | calMeasurementDone (p : PortId) (m : CalMeas)
  /-- RNG_SUSPECT_CLEAR (R270): the value written to RNG_SUSPECT. -/
  | rngSuspectClear (h : HostHdr) (p : PortId) (v : Word)
  /-- RETEST (R278). -/
  | retest (h : HostHdr) (p : PortId)
  /-- MARGIN_TEST_DONE (R276): the lanes that passed at each mode tested. -/
  | marginTestDone (p : PortId) (nrz pam4 pam6 : Option (BitVec 18))
  /-- LGT_SAVE (R260). -/
  | lgtSave (h : HostHdr)
  /-- LGT_PERIODIC (R260). -/
  | lgtPeriodic
  /-- LGT_WRITE_DONE (R260). -/
  | lgtWriteDone
  /-- PM_REPORT (R289): laser 0-17 F, 18 T0, 19 T1; Pm in 0.1 dBm. -/
  | pmReport (b : BankId) (laser : Fin 20) (pm : Int)
  /-- LMF_UPDATE (R292) of one line: what the receivers of its fed ports saw. -/
  | lmfUpdate (b : BankId) (w : LaneId) (obs : List SmfObs)
  /-- DRIVE_STEP (R293) of one line. -/
  | driveStep (b : BankId) (w : LaneId)
  /-- HANDOVER_START (R295). -/
  | handoverStart (b : BankId) (w : LaneId)
  /-- HO_GO (R294): the value written to LB_CTL. -/
  | hoGo (h : HostHdr) (b : BankId) (v : Word)
  /-- SPARE_LOCKED (R295). -/
  | spareLocked (b : BankId)
  /-- SHUTTER_OPEN (R295). -/
  | shutterOpen (b : BankId)
  /-- SOURCE_RAMP_DONE (R295). -/
  | sourceRampDone (b : BankId)
  /-- HANDOVER_CHECK (R295): the fed ports whose check passed. -/
  | handoverCheck (b : BankId) (passed : List PortId)
  /-- HANDOVER_CUT_IN (R295). -/
  | handoverCutIn (b : BankId)
  /-- SPARE_TUNE_TIMEOUT (R297). -/
  | spareTuneTimeout (b : BankId)
  /-- BANK_RECORD_WRITE (R290). -/
  | bankRecordWrite
  /-- LOSS_OF_LIGHT (R303). -/
  | lossOfLight (x : XPort)
  /-- FERRULE_OPEN (R303): ferrule A (0) or B (1). -/
  | ferruleOpen (f : Fin 2)
  /-- FORCE_DARK (R303): the value written to EYE_CTL. -/
  | forceDark (h : HostHdr) (x : XPort) (v : Word)
  /-- LB6_LIGHT_LOSS (R303). -/
  | lb6LightLoss
  /-- DARK_CONFIRM_TIMEOUT (R304). -/
  | darkConfirmTimeout (x : XPort)
  /-- EYE_PROBE (R305). -/
  | eyeProbe (x : XPort)
  /-- LIGHT_DETECTED (R305). -/
  | lightDetected (x : XPort)
  /-- ARMED_TIMEOUT (R305). -/
  | armedTimeout (x : XPort)
  /-- FLIT_RECEIVE (R325): the receive lanes that have brought something since the last one, and what each of them has: on an external
  port the levels that the slicers read of one frame, on the Pofold link 18-bit symbols; nothing where flits already decoded are
  left. -/
  | flitReceive (l : LinkId) (lanes : List (Fin 18)) (heard : List (List Nat))
  /-- FLIT_SEND (R331). -/
  | flitSend (l : LinkId)
  /-- NAK (R330). -/
  | nak (l : LinkId) (seq : BitVec 16)
  /-- REPLAY_TIMER (R330). -/
  | replayTimer (l : LinkId)
  /-- LANE_ALIGN_LOSS (R314): the lane, and the 20 bits at the expected comma positions that did not match. -/
  | laneAlignLoss (x : XPort) (c : LaneCommas)
  /-- ANNOUNCE (R337). -/
  | announce (x : XPort) (map : BitVec 18) (gen : Bool) (q : BitVec 16)
  /-- ACCEPT (R338). -/
  | accept (x : XPort) (map : BitVec 18) (gen : Bool)
  /-- LANE_REQ (R337): `ret` to return the lane, otherwise to take it out. -/
  | laneReq (x : XPort) (l : LaneId) (ret : Bool)
  /-- ANNOUNCE_TIMEOUT (R339). -/
  | announceTimeout (x : XPort)
  /-- MAP_CHANGE (R338). -/
  | mapChange (x : XPort)
  /-- RETRAIN (R340). -/
  | retrain (x : XPort) (cause : RetrainCause)
  /-- READY (R340): the partner's READY, byte 2. -/
  | ready (x : XPort) (allAligned : Bool)
  /-- RETRAIN_TIMEOUT (R340). -/
  | retrainTimeout (x : XPort)
  /-- DOWN (R341). -/
  | down (x : XPort) (cause : DownCause)
  /-- LNK_CTL_DOWN (R353): the value written to LNK_CTL. -/
  | lnkCtlDown (h : HostHdr) (x : XPort) (v : Word)
  /-- RENEG (R346). -/
  | reneg (h : HostHdr) (x : XPort)
  /-- GRACE_EXPIRY (R343). -/
  | graceExpiry (x : XPort)
  /-- FLUSH (R343). -/
  | flush (h : HostHdr) (x : XPort)
  /-- ADVERTISE (R344). -/
  | advertise (x : XPort) (a : Advert)
  /-- CONFIRM (R345). -/
  | confirm (x : XPort) (cf : Confirm)
  /-- NEGOTIATION_RETRY (R345). -/
  | negotiationRetry (x : XPort)
  /-- MFREP (R291): E and MF of L0-L17. -/
  | mfrep (x : XPort) (vals : List (Byte × Byte))
  /-- CALDATA (R267): lane, mode, mean and spread of up to six levels in 1/16 ADC code. -/
  | caldata (x : XPort) (l : LaneId) (mode : Fin 4) (levels : List (BitVec 16 × BitVec 16))
  /-- PROBE_TIMER (R360): t1 of the PROBE sent, as a fraction of the present beat in sixteenths. -/
  | probeTimer (x : XPort) (frac : Fin 16)
  /-- PROBE (R361): t1 and number received; t2 and t3 lie at the present beat with these fractions. -/
  | probe (x : XPort) (t1 : BitVec 64) (num : Word) (frac2 frac3 : Fin 16)
  /-- ECHO (R361): the echoed stamps, the number, and the fraction of t4. -/
  | echo (x : XPort) (t1 t2 t3 : BitVec 64) (num : Word) (frac4 : Fin 16)
  /-- ECHO_TIMEOUT (R360). -/
  | echoTimeout (x : XPort) (num : Word)
  /-- BEAT_STEP (R362). -/
  | beatStep
  /-- REALIGN (R362). -/
  | realign (h : HostHdr)
  /-- SYNC_OUT_PULSE (R364). -/
  | syncOutPulse
  /-- SYNC_IN_EDGE (R364): the fraction of the present beat in sixteenths. -/
  | syncInEdge (frac : Fin 16)
  /-- RENEW_TIMER (R372). -/
  | renewTimer
  /-- RENEW (R372). -/
  | renew (lease : Word) (sent : BitVec 64)
  /-- GRANT (R372). -/
  | grant (lease : Word)
  /-- REFUSE (R373). -/
  | refuse (lease : Word)
  /-- LEAD_CUTOFF (R372). -/
  | leadCutoff
  /-- TAKEOVER (R373). -/
  | takeover
  /-- GROUPFAIL (R375). -/
  | groupfail (x : XPort) (m : ModId)
  /-- YIELD (R376). -/
  | yield (lease : Word) (d : Word)
  /-- YIELD_STOP (R376). -/
  | yieldStop
  /-- YIELD_TAKEOVER (R376). -/
  | yieldTakeover
  /-- PRT_CTL_YIELD (R376). -/
  | prtCtlYield (h : HostHdr)
  /-- SOLO (R371). -/
  | solo (h : HostHdr)
  /-- PRT_CTL_JOIN (R377). -/
  | prtCtlJoin (h : HostHdr)
  /-- JOIN (R377). -/
  | join
  /-- COPY_ROUND (R377): a round of the lead's copy ends. -/
  | copyRound
  /-- REJOIN_STEP_COPY (R377): for one context; `asLead` at the lead, otherwise the copy that reaches the partner with
  its flag, step counter, seeds and sync values. -/
  | rejoinStepCopy (c : CtxId) (asLead : Bool) (flag : Bool) (step rseed sseed : BitVec 64)
      (vals : List (ObjId × BitVec 20))
  /-- FAILBACK (R378): the clean period is over, at the shadow; or its request reaches the lead. -/
  | failback (atLead : Bool)
  /-- HELD_RESULT_EXPIRY (R374). -/
  | heldResultExpiry
  /-- HASH (R384). -/
  | hash (r : HashRec)
  /-- HASHACK (R383). -/
  | hashack (id : HashId)
  /-- HASH_TIMEOUT (R384). -/
  | hashTimeout (id : HashId)
  /-- MCHALT (R384). -/
  | mchalt (cause : Byte) (id : HashId)
  /-- MC_CLEAR (R384). -/
  | mcClear (h : HostHdr)
  /-- HUB_MODE_WRITE (R397). -/
  | hubModeWrite (h : HostHdr) (v : Word)
  /-- IDLE_ENTRY (R414). -/
  | idleEntry
  /-- IDLE_EXIT (R414). -/
  | idleExit
  /-- TRAINING_BLOCK (R418, R419): the fifteen data symbols received on a lane, first symbol first. -/
  | trainingBlock (lane : Fin 8) (syms : List (BitVec 16))
  /-- TRAINING_RESTART (R419). -/
  | trainingRestart
  /-- HLK_RETRAIN (R423). -/
  | hlkRetrain
  /-- HLK_RETRAIN_TIMEOUT (R423). -/
  | hlkRetrainTimeout
  /-- HLK_CTL_RETRAIN (R436). -/
  | hlkCtlRetrain (h : HostHdr)
  /-- KSYNC_LOSS (R424). -/
  | ksyncLoss
  /-- HOST_LINK_RESET (R424). -/
  | hostLinkReset (cause : HlkCause)
  /-- HLK_CTL_RESET (R436). -/
  | hlkCtlReset (h : HostHdr)
  /-- LINK_UP (R425). -/
  | linkUp
  /-- EFM_REPORT (R413): E as the eye gives it, and the symbols that the lane has received since the last report beside those that
  FLIT_RECEIVE has brought. -/
  | efmReport (lane : Fin 8) (e : Byte) (heard : List (BitVec 18))
  /-- TAP_REQUEST (R413): pre and post requests coded as symbol 3 of R418. -/
  | tapRequest (lane : Fin 8) (pre post : Fin 4)
  /-- STANDBY_POWER_GOOD (R440). -/
  | standbyPowerGood
  /-- STANDBY_POWER_LOSS (R575): ms for which STBY_12V stays below 10.8 V. -/
  | standbyPowerLoss (ms : Nat)
  /-- START (R441): whether the guest site's contact is closed, and what else the start finds. -/
  | start (guest : Bool) (found : StartFound)
  /-- START_PHASE_DONE (R442). -/
  | startPhaseDone (f : PhaseFound)
  /-- RST_N_ASSERT (R463, R579): how long RST_N was low, in ns. -/
  | rstNAssert (ns : Nat)
  /-- HUB_RST_WARM (R463): the value written to HUB_RST. -/
  | hubRstWarm (h : HostHdr) (v : Word)
  /-- QUIESCE (R466): the value written to HUB_RST. -/
  | quiesce (h : HostHdr) (v : Word)
  /-- QUIESCED (R466). -/
  | quiesced
  /-- MAIN_POWER_LOSS (R568). -/
  | mainPowerLoss
  /-- FLASH_READ (R471). -/
  | flashRead (h : HostHdr)
  /-- FLASH_PROGRAM (R471). -/
  | flashProgram (h : HostHdr)
  /-- FLASH_ERASE (R471). -/
  | flashErase (h : HostHdr)
  /-- FLASH_DONE (R471): the device's outcome, 0 none, 1 device error, 2 timeout, 3 verify mismatch. -/
  | flashDone (err : Fin 4)
  /-- HUB_NONCE (R458). -/
  | hubNonce (h : HostHdr) (i : Fin 12) (v : Word)
  /-- ATTEST_GO (R458). -/
  | attestGo (h : HostHdr)
  /-- ATTEST_DONE (R458). -/
  | attestDone
  /-- FAULT_EVENT (R473). -/
  | faultEvent (r : FaultReport)
  /-- ESCALATION (R484). -/
  | escalation (src : Fin 32)
  /-- FLT_ACK (R483). -/
  | fltAck (h : HostHdr) (v : Word)
  /-- FLT_STATUS1_CLEAR (R488). -/
  | fltStatus1Clear (h : HostHdr) (v : Word)
  /-- ERRN_PULSE_END (R487). -/
  | errnPulseEnd
  /-- FLT_INJ (R489). -/
  | fltInj (h : HostHdr) (k : Fin 10) (v : Word)
  /-- FLT_IINJ (R490). -/
  | fltIinj (h : HostHdr) (v : Word)
  /-- SENSOR_UPDATE (R498): the readings of the two elements in 1/16 degC. -/
  | sensorUpdate (i : Fin 264) (a b : Int)
  /-- SENSOR_BROKEN (R499). -/
  | sensorBroken (i : Fin 264) (cause : SensorCause)
  /-- SENSOR_SELFCHECK (R499): the self-check passed, and the elements have agreed for 100 ms. -/
  | sensorSelfcheck (i : Fin 264) (pass agree : Bool)
  /-- RECHECK (R499): the value written to TP_SENSCTL. -/
  | recheck (h : HostHdr) (v : Word)
  /-- THERMAL_TRIP (R500). -/
  | thermalTrip (i : Fin 264)
  /-- THROTTLE_EVAL (R504): the dies whose current limit binds, and the measured steps per us by die. -/
  | throttleEval (binds : BitVec 12) (rates : List Nat)
  /-- POWER_EVAL (R509): input power over 1 ms and over 10 ms in W, voltage in 10 mV. -/
  | powerEval (power peak10 volt : Nat)
  /-- INPUT_VOLTAGE_FAULT (R510). -/
  | inputVoltageFault
  /-- STAGE_FAULT (R508). -/
  | stageFault (dom : Fin 20)
  /-- REFCLK_FAULT (R577). -/
  | refclkFault
  /-- RETIRE (R512): the value written to TP_TDCTL. -/
  | retire (h : HostHdr) (v : Word)
  /-- RETIRE_DONE (R512). -/
  | retireDone (d : DieId)
  /-- DIE_RESTORE (R514): the value written to TP_TDCTL. -/
  | dieRestore (h : HostHdr) (v : Word)
  /-- DIE_RESTORE_DONE (R514). -/
  | dieRestoreDone (d : DieId) (o : RestoreOutcome)
  /-- DBG_SAMPLE (R526). -/
  | dbgSample (h : HostHdr) (d : DieId)
  /-- REEL_ENABLE (R547): the value written to DBG_REELCTL. -/
  | reelEnable (h : HostHdr) (d : DieId) (v : Word)
  /-- REEL_FLUSH (R531). -/
  | reelFlush (d : DieId)
  /-- FORCE (R533): the value written to DBG_TRIGCFG1. -/
  | force (h : HostHdr) (d : DieId) (v : Word)
  /-- TRACE_EXPORT (R534). -/
  | traceExport
  /-- WATCHDOG_EXPIRY (R535). -/
  | watchdogExpiry (d : DieId) (k : CallerId)
  /-- DUMP_GO (R536). -/
  | dumpGo (h : HostHdr)
  /-- DUMP_ARM (R540). -/
  | dumpArm (h : HostHdr)
  /-- DUMP_COMMIT (R537). -/
  | dumpCommit
  /-- I3C_POINTER_WRITE (R559). -/
  | i3cPointerWrite (addr : Word)
  /-- I3C_WRITE (R559). -/
  | i3cWrite (addr value : Word)
  /-- I3C_READ (R559). -/
  | i3cRead
  /-- LANE_ALIGNED (R314): the lane with the commas seen at 1,040-bit spacing and its skew. -/
  | laneAligned (x : XPort) (c : LaneAlign)
  /-- FRAME_GENERATION_CHANGE (R315): the comma that each lane shows in the frame. -/
  | frameGenerationChange (x : XPort) (commas : List (Fin 18 × BitVec 20))
  /-- FERRULE_CLOSE (R305). -/
  | ferruleClose (f : Fin 2)
  /-- HLK_LANE_ALIGN_LOSS (R411): the lane, and its symbols at the expected K.SYNC positions that did not match. -/
  | hlkLaneAlignLoss (c : LaneSyncs)
  /-- RX_ELECTRICAL_IDLE (R414). -/
  | rxElectricalIdle
  /-- RX_EXIT_BURST (R414). -/
  | rxExitBurst (b : ExitBurst)
  /-- LCTL_REPEAT (R336). -/
  | lctlRepeat (x : XPort)
  /-- DUMP_STOP (R540). -/
  | dumpStop
  /-- ERR_N_DEFERRED_PULSE (R487). -/
  | errNDeferredPulse
  /-- DYNAMIC_ADDRESS_ASSIGNMENT (R582): the static address SETDASA named, or none for ENTDAA; the address given. -/
  | dynamicAddressAssignment (setdasa : Option (BitVec 7)) (addr : BitVec 7)
deriving DecidableEq, Repr

end Sys2Proof
end

