-- ==== Sys2Proof/Config.lean ====
section
/-! DEFINITION. What an implementation fixes and what the spec leaves open: opaque constants without a body, so that no
proof can see a value of them. Log entries 2, 3, 21, 22 and 75 to 77 name each. -/
namespace Sys2Proof.Config

/-- A fresh free value of 64 bits for each value of the state's counter `freeCtr`: stands for every value the spec
leaves open after a step that goes on. -/
opaque freeValue : Nat → BitVec 64

/-- SHA-384 of a byte string (R232, R448, R456): a standard function of which the spec gives the name only. -/
opaque sha384 : List Byte → BitVec 384

/-- ECDSA P-384 verification: public key, message, signature (R232, R448). -/
opaque ecdsaVerify : List Byte → List Byte → BitVec 768 → Bool

/-- ECDSA P-384 signature of a message under a private key (R457). -/
opaque ecdsaSign : BitVec 384 → List Byte → BitVec 768

/-- The device key that the PUF power-up response and the helper data of the EEPROM yield (R456), if they do. -/
opaque pufKey : List Byte → List Byte → Option (BitVec 384)

/-- The public key, in 96 bytes, of a private key (R456). -/
opaque publicKey : BitVec 384 → List Byte

/-- The participant index of a die in an anchor group (R51), for its module number, its die number and its figure: no field
of the figure or its descriptor gives it. -/
opaque participantIndex : Nat → Nat → List Byte → BitVec 8

/-- The first K tile of unit `u` of `s` units that share `t` tiles when `s` does not divide `t` (R75). -/
opaque tileCut : Nat → Nat → Nat → Nat

/-- A device certificate chain names this public key (R456). -/
opaque certNames : List Byte → List Byte → Bool

/-- Which neighbour round(n / d) of R258 and R263 takes where n / d lies halfway between two integers (log entry 21). -/
opaque halfwayUp : Int → Nat → Bool

/-- Which of the sensors that R258 allows is a port's reference sensor (log entry 22). -/
opaque refSensorOf : Nat → Nat

/-- What the readout of stack `st` gives as its temperature in °C at this real time in picoseconds (R171, log entry 75). -/
opaque stackTemp : Nat → Nat → BitVec 8

/-- Picoseconds, six values of them, by which the down-spread of the common reference lengthens a beat that begins at this
real time (R5). -/
opaque spread : Nat → Nat

/-- The level at which the lock pattern of a preamble ends, by lane mode (R229, R251, log entry 77). -/
opaque lockPatternEnd : Nat → Nat

/-- Where a transmitting lane's PRBS-31 generator starts (R313, log entry 76). -/
opaque prbsStart : Nat → BitVec 31

/-- Vendor root key hash of the mask ROM (R440, R453). -/
opaque romRootHash : BitVec 384

end Sys2Proof.Config
end

