-- ==== Sys2Proof/Machine/Numerics.lean ====
section
/-! DEFINITION. Numeric formats, rounding, FP32 arithmetic, the vector-unit functions and the keyed generator
(R39 to R45, R48, R49, R58 to R65). Everything here is a function of its arguments alone. -/
namespace Sys2Proof.Machine

/-! ### Format codes (R39, R119) -/

/-- The nine formats of R119; the first six are the MX element formats of R39. -/
inductive Fmt where
  | e4m3 | e5m2 | e2m3 | e3m2 | e2m1 | int8 | bf16 | fp32 | int32
deriving DecidableEq, Repr

/-- Format codes of R119; 9 to 15 are reserved. -/
def Fmt.ofCode : Nat → Option Fmt
  | 0 => some .e4m3 | 1 => some .e5m2 | 2 => some .e2m3 | 3 => some .e3m2 | 4 => some .e2m1
  | 5 => some .int8 | 6 => some .bf16 | 7 => some .fp32 | 8 => some .int32 | _ => none

/-- The six MX formats of R39. -/
def Fmt.isMx : Fmt → Bool
  | .bf16 | .fp32 | .int32 => false
  | _ => true

/-- Bits of one element (R39, R44). -/
def Fmt.width : Fmt → Nat
  | .e4m3 | .e5m2 | .int8 => 8
  | .e2m3 | .e3m2 => 6
  | .e2m1 => 4
  | .bf16 => 16
  | .fp32 | .int32 => 32

/-- L of R39: fraction bits of the integer form (7 for BF16, by R45). -/
def Fmt.fracBits : Fmt → Nat
  | .e4m3 => 9 | .e5m2 => 16 | .e2m3 => 3 | .e3m2 => 4 | .e2m1 => 1 | .int8 => 6 | _ => 7

/-- g of R39 (1 for BF16, by R46). -/
def Fmt.guard : Fmt → Nat
  | .e4m3 => 9 | .e5m2 => 16 | .e2m3 => 3 | .e3m2 => 5 | .e2m1 => 3 | .int8 => 1 | _ => 1

/-- emax of R60. -/
def Fmt.emax : Fmt → Int
  | .e4m3 => 8 | .e5m2 => 15 | .e2m3 => 2 | .e3m2 => 4 | .e2m1 => 2 | _ => 0

/-- Mantissa bits of a floating-point MX format (R39). -/
def Fmt.mant : Fmt → Nat
  | .e4m3 => 3 | .e5m2 => 2 | .e2m3 => 3 | .e3m2 => 2 | .e2m1 => 1 | _ => 0

/-- One decoded operand: a finite integer form N, NaN, or an infinity with its sign (R40, R49). -/
inductive Elem where
  | fin (n : Int)
  | nan
  | inf (neg : Bool)
deriving DecidableEq, Repr

/-- The element an encoding of an MX format stands for (R39, R40). -/
def elemDecode (f : Fmt) (x : Nat) : Elem :=
  match f with
  | .int8 => .fin (if x % 256 < 128 then (x % 256 : Nat) else (x % 256 : Nat) - 256)
  | _ =>
    let m := f.mant
    let w := f.width
    let neg := x / 2 ^ (w - 1) % 2 = 1
    let e := x / 2 ^ m % 2 ^ (w - 1 - m)
    let frac := x % 2 ^ m
    if f = .e4m3 ∧ e = 15 ∧ frac = 7 then .nan
    else if f = .e5m2 ∧ e = 31 then (if frac = 0 then .inf neg else .nan)
    else
      let n : Int := if e = 0 then frac else ((2 ^ m + frac) * 2 ^ (e - 1) : Nat)
      .fin (if neg then -n else n)

/-- A BF16 operand as R45 reads it: N with hidden bit, zero for zero and subnormals (R44), and the LSB exponent. -/
def bf16Decode (x : Nat) : Elem × Int :=
  let neg := x / 32768 % 2 = 1
  let e := x / 128 % 256
  let m := x % 128
  if e = 255 then (if m = 0 then .inf neg else .nan, 0)
  else if e = 0 then (.fin 0, 0)
  else (.fin (if neg then -(128 + m : Nat) else (128 + m : Nat)), (e : Int) - 134)

/-! ### Numeric conditions of TD_NUMSTAT (R67) -/

/-- Bits of TD_NUMSTAT that one operation or figure sets (R67). -/
abbrev NumFlags := BitVec 8
def nfInv : NumFlags := 0x01
def nfTrunc : NumFlags := 0x02
def nfNan : NumFlags := 0x04
def nfFtz : NumFlags := 0x08
def nfOvf : NumFlags := 0x10
def nfQsat : NumFlags := 0x20
def nfCellErr : NumFlags := 0x40
def nfModeRej : NumFlags := 0x80

/-- An FP32 value and the conditions its making met. -/
structure Fv where
  bits : Word
  fl : NumFlags := 0
deriving DecidableEq, Repr

def qnan : Word := 0x7FC00000
def fpInf (neg : Bool) : Word := if neg then 0xFF800000 else 0x7F800000
def fpZero (neg : Bool) : Word := if neg then 0x80000000 else 0

/-! ### Keyed generator (R64) -/

def mix64 (z : BitVec 64) : BitVec 64 :=
  let z := (z ^^^ (z >>> 30)) * 0x9C6D21F3B8A54E17#64
  let z := (z ^^^ (z >>> 27)) * 0xE7B15A932C4FD80B#64
  z ^^^ (z >>> 31)

/-- keyed_random of R64: 32 bits that depend on the key alone. -/
def keyedRandom (seed step : BitVec 64) (tensor index : Word) : Word :=
  let x := mix64 (seed ^^^ mix64 (step + 0x9E3779B97F4A7C15#64))
  let y := mix64 (x ^^^ (tensor ++ index))
  let y := mix64 (y + x)
  (y >>> 32).truncate 32

/-! ### round_to (R58) -/

/-- Rounding of a write-back: to nearest even, or stochastic with the 32 drawn bits (R58, R59). -/
inductive Rnd where
  | rne
  | sr (draw : Nat)
deriving DecidableEq, Repr

def bitLength (n : Nat) : Nat := if n = 0 then 0 else Nat.log2 n + 1

/-- The significand kept and the unbiased exponent after rounding to `p` bits (R58). -/
def roundSig (p a : Nat) (lsb : Int) (m : Rnd) : Nat × Int :=
  let t := bitLength a - 1
  let e : Int := t + lsb
  if t ≤ p - 1 then (a <<< (p - 1 - t), e)
  else
    let d := t - (p - 1)
    let sig := a >>> d
    let f := a - (sig <<< d)
    let up := match m with
      | .rne => decide (f > 1 <<< (d - 1) ∨ (f = 1 <<< (d - 1) ∧ sig % 2 = 1))
      | .sr draw => decide ((f <<< 32) >>> d + draw ≥ 2 ^ 32)
    let sig := if up then sig + 1 else sig
    if sig = 1 <<< p then (sig >>> 1, e + 1) else (sig, e)

/-- round_to of R58: `p` is 24 for FP32 and 8 for BF16; the result is given in the FP32 layout (a BF16 value is its upper
half, R44). OVF and FTZ are the conditions the last two returns set. -/
def roundTo (p : Nat) (acc lsb : Int) (m : Rnd) : Fv :=
  let neg := decide (acc < 0)
  let (sig, e) := roundSig p acc.natAbs lsb m
  if e > 127 then ⟨fpInf neg, nfOvf⟩
  else if e < -126 then ⟨fpZero neg, nfFtz⟩
  else ⟨fpZero neg ||| BitVec.ofNat 32 ((e + 127).toNat <<< 23 + (sig - 2 ^ (p - 1)) <<< (24 - p)), 0⟩

/-- to_fp32 of R62. -/
def toFp32 (v lsb : Int) : Fv := if v = 0 then ⟨0, 0⟩ else roundTo 24 v lsb .rne

/-! ### FP32 values (R44) -/

def fpNeg (x : Word) : Bool := x.getLsbD 31
def fpExpF (x : Word) : Nat := (x.toNat / 2 ^ 23) % 256
def fpFrac (x : Word) : Nat := x.toNat % 2 ^ 23
def fpIsNan (x : Word) : Bool := fpExpF x = 255 && fpFrac x ≠ 0
def fpIsInf (x : Word) : Bool := fpExpF x = 255 && fpFrac x = 0
/-- A zero, or a subnormal, which is read as a zero of the same sign (R44). -/
def fpIsZero (x : Word) : Bool := fpExpF x = 0
/-- Unbiased exponent of a normal value. -/
def fpExp (x : Word) : Int := (fpExpF x : Int) - 127
/-- Signed integer significand: a finite value is `fpSig x × 2^(fpExp x - 23)`, 0 for zeros. -/
def fpSig (x : Word) : Int :=
  if fpIsZero x then 0 else if fpNeg x then -(2 ^ 23 + fpFrac x : Nat) else (2 ^ 23 + fpFrac x : Nat)
def fpLsb (x : Word) : Int := if fpIsZero x then 0 else fpExp x - 23

/-- x < y for values neither of which is NaN; zeros of either sign are equal here. -/
def fpLt (x y : Word) : Bool :=
  let key (v : Word) : Int := if fpIsZero v then 0 else
    let m : Int := (v.toNat % 2 ^ 31 : Nat)
    if fpNeg v then -m else m
  key x < key y

/-- The order-preserving key of ROWMAX (R63). -/
def fpKey (x : Word) : Int :=
  if fpIsNan x then 0x7FFFFFFF
  else
    let x := if fpIsZero x then fpZero (fpNeg x) else x
    if fpNeg x then (x ^^^ 0x7FFFFFFF#32).toInt else x.toInt

/-- The value a returned key of ROWMAX maps back to (R63). -/
def fpOfKey (k : Int) : Word :=
  if k = 0x7FFFFFFF then qnan
  else if k ≥ 0 then BitVec.ofInt 32 k else BitVec.ofInt 32 k ^^^ 0x7FFFFFFF#32

/-- The result NaN, with INV when no operand was NaN (R62, R67). -/
def nanOf (operandNan : Bool) : Fv := ⟨qnan, if operandNan then nfNan else nfNan ||| nfInv⟩

/-- Exact sum of two dyadic numbers, as an integer and its LSB exponent. -/
def dyAdd (m₁ e₁ m₂ e₂ : Int) : Int × Int :=
  let e := min e₁ e₂
  (m₁ * 2 ^ (e₁ - e).toNat + m₂ * 2 ^ (e₂ - e).toNat, e)

/-- FP32 addition with RNE (R62). -/
def fadd (x y : Word) : Fv :=
  if fpIsNan x || fpIsNan y then nanOf true
  else if fpIsInf x then
    if fpIsInf y && fpNeg x != fpNeg y then nanOf false else ⟨fpInf (fpNeg x), 0⟩
  else if fpIsInf y then ⟨fpInf (fpNeg y), 0⟩
  else if fpIsZero x && fpIsZero y then ⟨fpZero (fpNeg x && fpNeg y), 0⟩
  else
    let (m, e) := if fpIsZero x then (fpSig y, fpLsb y) else if fpIsZero y then (fpSig x, fpLsb x)
      else dyAdd (fpSig x) (fpLsb x) (fpSig y) (fpLsb y)
    toFp32 m e

/-- NEG of R62. -/
def fneg (x : Word) : Word := if fpIsNan x then qnan else (if fpIsZero x then fpZero (fpNeg x) else x) ^^^ 0x80000000#32

def fsub (x y : Word) : Fv := if fpIsNan x || fpIsNan y then nanOf true else fadd x (fneg y)

/-- FP32 multiplication with RNE (R62). -/
def fmul (x y : Word) : Fv :=
  let neg := fpNeg x != fpNeg y
  if fpIsNan x || fpIsNan y then nanOf true
  else if fpIsInf x || fpIsInf y then
    if fpIsZero x || fpIsZero y then nanOf false else ⟨fpInf neg, 0⟩
  else if fpIsZero x || fpIsZero y then ⟨fpZero neg, 0⟩
  else toFp32 (fpSig x * fpSig y) (fpLsb x + fpLsb y)

/-- Fused multiply-add x × y + z with one rounding (R62). -/
def ffma (x y z : Word) : Fv :=
  let neg := fpNeg x != fpNeg y
  if fpIsNan x || fpIsNan y || fpIsNan z then nanOf true
  else if fpIsInf x || fpIsInf y then
    if fpIsZero x || fpIsZero y then nanOf false
    else if fpIsInf z && fpNeg z != neg then nanOf false else ⟨fpInf neg, 0⟩
  else if fpIsInf z then ⟨fpInf (fpNeg z), 0⟩
  else if fpIsZero x || fpIsZero y then
    if fpIsZero z then ⟨fpZero (neg && fpNeg z), 0⟩ else toFp32 (fpSig z) (fpLsb z)
  else
    let (m, e) := if fpIsZero z then (fpSig x * fpSig y, fpLsb x + fpLsb y)
      else dyAdd (fpSig x * fpSig y) (fpLsb x + fpLsb y) (fpSig z) (fpLsb z)
    toFp32 m e

/-- MAX and MIN of R62: NaN dominates and +0 ranks above -0; a NaN operand sets no condition but the NaN written. -/
def fmax (x y : Word) : Fv :=
  if fpIsNan x || fpIsNan y then ⟨qnan, 0⟩ else ⟨fpOfKey (max (fpKey x) (fpKey y)), 0⟩
def fmin (x y : Word) : Fv :=
  if fpIsNan x || fpIsNan y then ⟨qnan, 0⟩ else ⟨fpOfKey (min (fpKey x) (fpKey y)), 0⟩

/-- A BF16 result: the FP32 result narrowed by round_to with p = 8 and RNE, in the FP32 layout (R62). -/
def narrowBf16 (v : Fv) : Fv :=
  if fpIsNan v.bits then ⟨qnan, v.fl⟩
  else if fpIsInf v.bits then v
  else if fpIsZero v.bits then ⟨fpZero (fpNeg v.bits), v.fl⟩
  else
    let r := roundTo 8 (fpSig v.bits) (fpLsb v.bits) .rne
    ⟨r.bits, v.fl ||| r.fl⟩

/-- A BF16 operand widened exactly (R62). -/
def widenBf16 (x : BitVec 16) : Word := x ++ 0#16

/-! ### Tables and functions of R62 -/

def cExp1 : Int := 744261118
def cExp2 : Int := 257941248
def cExp3 : Int := 59597083
def cK : Int := 1549082005
def fpLog2e : Word := 0x3FB8AA3B
def fpGa : Word := 0x3D372713
def fpGb : Word := 0x40135761
def fpOne : Word := 0x3F800000

/-- T_EXP of R62: rne(2^(i/64) × 2^30), i = 0-63. -/
def tExp : List Int :=
  [1073741824, 1085434106, 1097253708, 1109202018, 1121280436, 1133490379, 1145833280, 1158310587, 1170923762, 1183674286, 1196563654, 1209593378, 1222764986, 1236080024, 1249540052, 1263146652] ++
  [1276901417, 1290805962, 1304861917, 1319070932, 1333434672, 1347954824, 1362633090, 1377471191, 1392470869, 1407633882, 1422962010, 1438457051, 1454120821, 1469955159, 1485961921, 1502142985] ++
  [1518500250, 1535035634, 1551751076, 1568648537, 1585730000, 1602997467, 1620452965, 1638098541, 1655936265, 1673968228, 1692196547, 1710623359, 1729250827, 1748081133, 1767116489, 1786359126] ++
  [1805811301, 1825475297, 1845353420, 1865448001, 1885761398, 1906295993, 1927054196, 1948038440, 1969251188, 1990694927, 2012372174, 2034285470, 2056437387, 2078830522, 2101467502, 2124350982]

/-- T_LOG of R62: rne(log2(1 + i/64) × 2^30), i = 0-63. -/
def tLog : List Int :=
  [0, 24017256, 47667823, 70962728, 93912511, 116527248, 138816582, 160789745, 182455581, 203822568, 224898839, 245692198, 266210141, 286459867, 306448299, 326182095] ++
  [345667660, 364911162, 383918542, 402695523, 421247625, 439580170, 457698295, 475606957, 493310944, 510814882, 528123241, 545240343, 562170370, 578917365, 595485245, 611877800] ++
  [628098702, 644151509, 660039669, 675766525, 691335320, 706749198, 722011213, 737124328, 752091421, 766915285, 781598637, 796144114, 810554283, 824831638, 838978604, 852997541] ++
  [866890747, 880660455, 894308843, 907838029, 921250079, 934547002, 947730758, 960803257, 973766362, 986621888, 999371606, 1012017244, 1024560487, 1037002979, 1049346328, 1061592099]

/-- RSQ of R62: rne(2^30 / sqrt((i + 0.5)/32)) for i = 32-127, listed from i = 32. -/
def tRsq : List Int :=
  [1065450257, 1049427536, 1034106604, 1019437682, 1005375799, 991880210, 978913898, 966443148, 954437177, 942867814, 931709222, 920937655, 910531246, 900469818, 890734723, 881308694] ++
  [872175715, 863320910, 854730438, 846391405, 838291779, 830420321, 822766514, 815320510, 808073073, 801015531, 794139734, 787438013, 780903145, 774528319, 768307107, 762233438] ++
  [756301570, 750506070, 744841792, 739303858, 733887640, 728588743, 723402992, 718326417, 713355240, 708485864, 703714861, 699038963, 694455052, 689960150, 685551414, 681226125] ++
  [676981684, 672815603, 668725501, 664709095, 660764199, 656888716, 653080633, 649338020, 645659022, 642041856, 638484810, 634986237, 631544551, 628158229, 624825801, 621545853] ++
  [618317022, 615137993, 612007499, 608924318, 605887270, 602895216, 599947056, 597041726, 594178200, 591355485, 588572620, 585828677, 583122756, 580453988, 577821530, 575224566] ++
  [572662306, 570133983, 567638856, 565176202, 562745326, 560345548, 557976212, 555636678, 553326329, 551044561, 548790791, 546564450, 544364986, 542191864, 540044561, 537922570]

/-- RCP of R62: rne(2^36 / (64 + i)). -/
def tRcp (i : Nat) : Int := ((2 * 2 ^ 36 + (64 + i)) / (2 * (64 + i)) : Nat)
/-- RCPT of R62: rne(2^30 × 128 / (128 + i + 0.5)). -/
def tRcpt (i : Nat) : Int := ((2 ^ 39 + (257 + 2 * i)) / (2 * (257 + 2 * i)) : Nat)

/-- vu_exp2 of R62. Its range limits return values of the definition and set no condition; only round_to does. -/
def vuExp2 (x : Word) : Fv :=
  if fpIsNan x then nanOf true
  else if fpIsInf x then (if fpNeg x then ⟨0, 0⟩ else ⟨fpInf false, 0⟩)
  else if !fpLt x 0x43000000 then ⟨fpInf false, 0⟩
  else if fpLt x 0xC2FC0000 then ⟨0, 0⟩
  else
    let sh := fpLsb x + 24
    let xf : Int := if sh ≥ 0 then fpSig x * 2 ^ sh.toNat else fpSig x / 2 ^ (-sh).toNat
    let n := xf / 2 ^ 24
    let f := xf - n * 2 ^ 24
    let i := f / 2 ^ 18
    let r := f - i * 2 ^ 18
    let q := cExp1 * r / 2 ^ 24 + cExp2 * r * r / 2 ^ 48 + cExp3 * r * r * r / 2 ^ 72
    let m := tExp.getD i.toNat 0 * (2 ^ 30 + q) / 2 ^ 30
    toFp32 m (n - 30)

/-- vu_log2 of R62. -/
def vuLog2 (x : Word) : Fv :=
  if fpIsNan x then nanOf true
  else if fpIsZero x then ⟨fpInf true, 0⟩
  else if fpNeg x then nanOf false
  else if fpIsInf x then ⟨fpInf false, 0⟩
  else
    let e := fpExp x
    let g := fpFrac x
    let i := g / 2 ^ 17
    let d : Int := (g - i * 2 ^ 17 : Nat)
    let z := d * tRcp i / 2 ^ 23
    let s := z - z * z / 2 ^ 31 + z * z * z / (3 * 2 ^ 60)
    let v := e * 2 ^ 30 + tLog.getD i 0 + s * cK / 2 ^ 30
    toFp32 v (-30)

/-- vu_rsqrt of R62. -/
def vuRsqrt (x : Word) : Fv :=
  if fpIsNan x then nanOf true
  else if fpIsZero x then ⟨fpInf (fpNeg x), 0⟩
  else if fpNeg x then nanOf false
  else if fpIsInf x then ⟨0, 0⟩
  else
    let w₀ : Int := (2 ^ 23 + fpFrac x : Nat)
    let odd := fpExp x % 2 = 1
    let w := if odd then w₀ * 2 else w₀
    let e := if odd then fpExp x - 1 else fpExp x
    let iter (y : Int) : Int := y * (3 * 2 ^ 30 - w * (y * y / 2 ^ 30) / 2 ^ 23) / 2 ^ 31
    toFp32 (iter (iter (tRsq.getD ((w / 2 ^ 18).toNat - 32) 0))) (-30 - e / 2)

/-- vu_recip of R62. -/
def vuRecip (x : Word) : Fv :=
  if fpIsNan x then nanOf true
  else if fpIsZero x then ⟨fpInf (fpNeg x), 0⟩
  else if fpIsInf x then ⟨fpZero (fpNeg x), 0⟩
  else
    let sig : Int := (2 ^ 23 + fpFrac x : Nat)
    let iter (y : Int) : Int := y * (2 * 2 ^ 30 - sig * y / 2 ^ 23) / 2 ^ 30
    let y := iter (iter (tRcpt (fpFrac x / 2 ^ 16)))
    toFp32 (if fpNeg x then -y else y) (-30 - fpExp x)

/-- vu_silu of R62; the conditions are those of the last operation. -/
def vuSilu (x : Word) : Fv :=
  if x = 0xFF800000 then ⟨fpZero true, 0⟩
  else
    let u := vuExp2 (fmul (fneg x) fpLog2e).bits
    fmul x (vuRecip (fadd fpOne u.bits).bits).bits

/-- vu_gelu_tanh of R62; the conditions are those of the last operation. -/
def vuGeluTanh (x : Word) : Fv :=
  if x = 0xFF800000 then ⟨fpZero true, 0⟩
  else
    let x3 := fmul (fmul x x).bits x
    let w := fmul fpGb (fadd x (fmul fpGa x3.bits).bits).bits
    fmul x (vuRecip (fadd fpOne (vuExp2 (fneg w.bits)).bits).bits).bits

/-! ### Exact anchored accumulation (R45 to R50) -/

/-- A 256-bit accumulator as the exact integer it holds, with its four flags (R47, R49, R57). -/
structure Acc where
  acc : Int := 0
  sticky : Bool := false
  nan : Bool := false
  pinf : Bool := false
  ninf : Bool := false
deriving DecidableEq, Repr

/-- One product of a reduction: its two operands and the LSB exponent of their product (R45). -/
structure Prod where
  a : Elem
  w : Elem
  e : Int
deriving DecidableEq, Repr

/-- The product's effect at a global anchor (R48, R49). Products that set a flag add nothing. -/
def Acc.addProd (anchor : Int) (st : Acc) (p : Prod) : Acc :=
  match p.a, p.w with
  | .nan, _ | _, .nan => { st with nan := true }
  | .inf s, .inf t => if s == t then { st with pinf := true } else { st with ninf := true }
  | .inf s, .fin n | .fin n, .inf s =>
    if n = 0 then { st with nan := true }
    else if s == decide (n < 0) then { st with pinf := true } else { st with ninf := true }
  | .fin x, .fin y =>
    let sh := p.e - (anchor - 224)
    if sh ≥ 0 then { st with acc := st.acc + x * y * 2 ^ sh.toNat }
    else
      let q : Int := ((x * y).natAbs >>> (-sh).toNat : Nat)
      let lost := decide (q * 2 ^ (-sh).toNat ≠ ((x * y).natAbs : Int))
      { st with acc := st.acc + (if x * y < 0 then -q else q), sticky := st.sticky || lost }

/-- Accumulation of a reduction's products at the group's anchor; NONE adds nothing but flags (R46, R49, R50). -/
def eaaAccumulate (anchor : Option Int) (ps : List Prod) : Acc :=
  match anchor with
  | some a => ps.foldl (Acc.addProd a) {}
  | none => { ps.foldl (Acc.addProd 0) {} with acc := 0, sticky := false }

/-- Sum of two participants' accumulators with their flags (R57, R76). -/
def Acc.add (x y : Acc) : Acc :=
  ⟨x.acc + y.acc, x.sticky || y.sticky, x.nan || y.nan, x.pinf || y.pinf, x.ninf || y.ninf⟩

/-- Maximum over the qualifying blocks or pairs; NONE when there is none (R46). -/
def optMax : Option Int → Option Int → Option Int
  | none, y => y
  | x, none => x
  | some x, some y => some (max x y)

/-- Write-back of one element: the flags decide first, then round_to (R49, R58). Returns the FP32-layout value. -/
def Acc.writeBack (st : Acc) (anchor : Option Int) (p : Nat) (m : Rnd) : Fv :=
  let trunc : NumFlags := if st.sticky then nfTrunc else 0
  if st.nan || (st.pinf && st.ninf) then ⟨qnan, nfNan ||| trunc⟩
  else if st.pinf then ⟨fpInf false, trunc⟩
  else if st.ninf then ⟨fpInf true, trunc⟩
  else match anchor with
    | none => ⟨0, trunc⟩
    | some a =>
      if st.acc = 0 then ⟨0, trunc⟩
      else
        let r := roundTo p st.acc (a - 224) m
        ⟨r.bits, r.fl ||| trunc⟩

/-! ### QUANT and DEQUANT (R60, R78) -/

/-- Largest finite integer form N of a floating-point MX format (R39). -/
def Fmt.maxN : Fmt → Nat
  | .e4m3 => 448 * 2 ^ 9 | .e5m2 => 57344 * 2 ^ 16 | .e2m3 => 60 | .e3m2 => 28 * 16 | .e2m1 => 12 | _ => 0

/-- |v| × 2^lsb rounded to an integer multiple of 2^unit, by the mode. -/
def roundUnits (a : Nat) (lsb unit : Int) (m : Rnd) : Nat :=
  if lsb ≥ unit then a * 2 ^ (lsb - unit).toNat
  else
    let d := (unit - lsb).toNat
    let q := a >>> d
    let f := a - (q <<< d)
    let up := match m with
      | .rne => decide (2 * f > 2 ^ d ∨ (2 * f = 2 ^ d ∧ q % 2 = 1))
      | .sr draw => decide ((f <<< 32) >>> d + draw ≥ 2 ^ 32)
    if up then q + 1 else q

/-- Encoding of a magnitude with integer form `n` exactly representable in `f`. -/
def encodeMag (f : Fmt) (n : Nat) : Nat :=
  if n < 2 ^ f.mant then n
  else
    let t := bitLength n - 1
    let e := t - f.mant + 1
    e * 2 ^ f.mant + (n >>> (e - 1)) % 2 ^ f.mant

/-- One QUANT element: v = sign × a × 2^lsb scaled by 2^(127 - X), rounded, then saturated (R60 steps 5 to 7). -/
def quantElem (f : Fmt) (neg : Bool) (a : Nat) (lsb : Int) (m : Rnd) : Nat × NumFlags :=
  match f with
  | .int8 =>
    let n := roundUnits a lsb (-6) m
    if neg then
      if n > 128 then (0x80, nfQsat) else ((256 - n) % 256, 0)
    else if n > 127 then (0x7F, nfQsat) else (n, 0)
  | _ =>
    let sign := if neg then 2 ^ (f.width - 1) else 0
    let top : Int := (bitLength a : Int) - 1 + lsb
    let unit : Int := max (top - f.mant) (-(f.fracBits : Int))
    let n := roundUnits a lsb unit m * 2 ^ (unit + f.fracBits).toNat
    if n > f.maxN then (sign + encodeMag f f.maxN, nfQsat) else (sign + encodeMag f n, 0)

/-- QUANT of one block (R60): the scale code, the element encodings in order, and the conditions met. -/
def quantBlock (f : Fmt) (vs : List (Word × Rnd)) : Nat × List Nat × NumFlags :=
  if vs.any (fun v => fpIsNan v.1 || fpIsInf v.1) then
    (0xFF, vs.map (fun _ => 0), if vs.any (fun v => fpIsNan v.1) then nfNan else nfNan ||| nfInv)
  else
    let amax := vs.foldl (fun m v => max m (if fpIsZero v.1 then 0 else v.1.toNat % 2 ^ 31)) 0
    let x : Int := if amax = 0 then 0
      else max 0 (min 254 (((amax / 2 ^ 23 : Nat) : Int) - 127 - f.emax + 127))
    let es := vs.map fun v =>
      if fpIsZero v.1 then ((if fpNeg v.1 && f ≠ .int8 then 2 ^ (f.width - 1) else 0 : Nat), (0 : NumFlags))
      else quantElem f (fpNeg v.1) (fpSig v.1).natAbs (fpLsb v.1 + (127 - x)) v.2
    (x.toNat, es.map (·.1), es.foldl (fun fl e => fl ||| e.2) 0)

/-- DEQUANT of one element: the exact value of R40 and R41, rounded to `p` bits with RNE (R78). -/
def dequantElem (f : Fmt) (scale x p : Nat) : Fv :=
  if scale = 255 then ⟨qnan, nfNan⟩
  else match elemDecode f x with
    | .nan => ⟨qnan, nfNan⟩
    | .inf neg => ⟨fpInf neg, 0⟩
    | .fin n =>
      if n = 0 then ⟨fpZero (decide (f ≠ .int8 ∧ x / 2 ^ (f.width - 1) % 2 = 1)), 0⟩
      else roundTo p n ((scale : Int) - 127 - f.fracBits) .rne

/-! ### Sampling unit (R93 to R96) -/

structure Cand where
  z : Word
  idx : Int
deriving DecidableEq, Repr

def suRankBefore (a b : Cand) : Bool := fpLt b.z a.z || (!fpLt a.z b.z && a.idx < b.idx)

/-- Insertion of a candidate into a list in rank order. -/
def suInsert (c : Cand) : List Cand → List Cand
  | [] => [c]
  | d :: ds => if suRankBefore c d then c :: d :: ds else d :: suInsert c ds

def suSort (cs : List Cand) : List Cand := cs.foldr suInsert []

/-- su_scan of R94: the candidates in order of position, and whether a NaN was met. -/
def suScan (beta : Word) : Int → List Word → List Cand × Bool
  | _, [] => ([], false)
  | i, l :: ls =>
    let (cs, nan) := suScan beta (i + 1) ls
    let z := (fmul l beta).bits
    if fpIsNan z then (cs, true)
    else if z = 0xFF800000 then (cs, nan)
    else (⟨z, i⟩ :: cs, nan)

/-- Entries of candidate lists: NaN is flagged and excluded, -infinity excluded (R95). -/
def suEntries (cs : List Cand) : List Cand × Bool :=
  (cs.filter (fun c => !fpIsNan c.z && c.z ≠ 0xFF800000), cs.any (fun c => fpIsNan c.z))

/-- Merging of entries with one index (R95): the larger z stays; different z flag a duplicate. -/
def suMerge : List Cand → List Cand × Bool
  | [] => ([], false)
  | c :: cs =>
    let (ms, dup) := suMerge cs
    if ms.any (fun m => m.idx = c.idx) then
      (ms.map (fun m => if m.idx = c.idx && fpLt m.z c.z then { m with z := c.z } else m),
       dup || ms.any (fun m => m.idx = c.idx && (fpLt m.z c.z || fpLt c.z m.z)))
    else (c :: ms, dup)

/-- floor(v × 2^32) of a non-negative finite FP32 value. -/
def fpFloor32 (v : Word) : Nat :=
  let sh := fpLsb v + 32
  if sh ≥ 0 then (fpSig v).natAbs * 2 ^ sh.toNat else (fpSig v).natAbs / 2 ^ (-sh).toNat

def prefixSums : Nat → List Nat → List Nat
  | _, [] => []
  | a, x :: xs => (a + x) :: prefixSums (a + x) xs

/-- Number of leading elements that satisfy the test. -/
def countWhile (p : Nat → Bool) : List Nat → Nat
  | [] => 0
  | x :: xs => if p x then countWhile p xs + 1 else 0

/-- su_final of R94 on ranked entries: the token chosen and m, or none when no entry remains. -/
def suFinal (entries : List Cand) (k topp u : Nat) : Option (Cand × Nat) :=
  let c := (suSort entries).take k
  match c.head? with
  | none => none
  | some c0 =>
    let isTop := c0.z = 0x7F800000
    let c := if isTop then c.filter (fun e => e.z = 0x7F800000) else c
    let q := c.map fun e => if isTop then 2 ^ 32 else fpFloor32 (vuExp2 (fsub e.z c0.z).bits).bits
    let pre := prefixSums 0 q
    let s := pre.getLastD 0
    let m := countWhile (fun x => x * 65536 < (topp + 1) * s) pre + 1
    let target := (u * pre.getD (m - 1) 0) / 2 ^ 32
    let j := countWhile (fun x => x ≤ target) pre
    some (c.getD j c0, m)

end Sys2Proof.Machine
end

