-- ==== Sys2Proof/Machine/Fec.lean ====
section
/-! DEFINITION. The FEC code: GF(2¹⁰), the systematic Reed-Solomon encoder and the bounded-distance decoder (R316). -/
namespace Sys2Proof.Machine

/-- A 10-bit symbol: an element of GF(2¹⁰). -/
abbrev Sym := BitVec 10

/-! ### The field: primitive polynomial x¹⁰ + x³ + 1 -/

/-- A polynomial over GF(2), its coefficients the bits of `v`: x¹⁰ is x³ + 1, so what stands above folds back. -/
def gfFold (v : Nat) : Nat := let h := v >>> 10; v % 1024 ^^^ h ^^^ (h <<< 3)

/-- A polynomial of degree at most 40 as an element of the field: each fold takes 7 off a degree above 12. -/
def gfReduce (v : Nat) : Sym := BitVec.ofNat 10 (gfFold (gfFold (gfFold (gfFold (gfFold v)))))

/-- Multiplication by αⁿ, for n up to 31. -/
def gfShift (a : Sym) (n : Nat) : Sym := gfReduce (a.toNat <<< n)

/-- Multiplication: the product of the polynomials, reduced. -/
def gfMul (a b : Sym) : Sym :=
  if a = 0 then 0
  else gfReduce ((List.range 10).foldl (fun acc i => if b.getLsbD i then acc ^^^ (a.toNat <<< i) else acc) 0)

/-- αⁿ. -/
def gfExp : Nat → Sym
  | 0 => 1
  | n + 1 => gfShift (gfExp n) 1

/-- The inverse of a symbol other than 0: its 1,022nd power, the product of its powers 2 to 512. -/
def gfInv (a : Sym) : Sym :=
  ((List.range 9).foldl (fun x _ => let sq := gfMul x.1 x.1; (sq, gfMul x.2 sq)) (a, 1)).2

/-! ### Polynomials, the coefficient of lowest degree first -/

def polyEval (p : List Sym) (x : Sym) : Sym := p.foldr (fun c acc => gfMul acc x ^^^ c) 0

/-- The sum of two polynomials. -/
def polyAdd : List Sym → List Sym → List Sym
  | [], q => q
  | p, [] => p
  | a :: p, b :: q => (a ^^^ b) :: polyAdd p q

def polyScale (c : Sym) (p : List Sym) : List Sym := p.map (gfMul c)

/-- (x + c) p. -/
def polyTimesRoot (c : Sym) (p : List Sym) : List Sym := polyAdd (0 :: p) (polyScale c p)

/-- g(x) = ∏ (x − αⁱ) for i = 0 to 2t − 1. -/
def rsGenerator (t : Nat) : List Sym := (List.range (2 * t)).foldl (fun g i => polyTimesRoot (gfExp i) g) [1]

/-! ### The encoder -/

/-- Symbols that a codeword corrects. -/
def fecCorrects (strong : Bool) : Nat := if strong then 16 else 8

/-- The remainder of the data, the coefficient of highest degree first, times x²ᵗ by g(x): the parity symbols in the order sent.
Missing leading symbols are zero, so that a shortened codeword needs no other rule. -/
def rsParity (t : Nat) (data : List Sym) : List Sym :=
  let g := (rsGenerator t).reverse.drop 1
  data.foldl (fun r d =>
    let f := d ^^^ r.headD 0
    polyAdd (r.drop 1 ++ [0]) (polyScale f g)) (List.replicate (2 * t) 0)

/-- A codeword: its data symbols and its parity symbols. -/
def rsEncode (t : Nat) (data : List Sym) : List Sym := data ++ rsParity t data

/-! ### The decoder -/

/-- Syndromes of a received word, the coefficient of highest degree first: its values at α⁰ to α²ᵗ⁻¹. -/
def rsSyndromes (t : Nat) (w : List Sym) : List Sym :=
  (List.range (2 * t)).map fun i => w.foldl (fun acc c => gfShift acc i ^^^ c) 0

/-- What the Berlekamp-Massey algorithm carries: the locator so far, the one before its last change of length, the length, the
steps since and the discrepancy then. -/
structure Locator where
  c : List Sym := [1]
  b : List Sym := [1]
  len : Nat := 0
  gap : Nat := 1
  last : Sym := 1

/-- One step of it, for syndrome number `n`. -/
def Locator.step (synd : List Sym) (q : Locator) (n : Nat) : Locator :=
  let d := (List.range (q.len + 1)).foldl (fun acc i => acc ^^^ gfMul (q.c.getD i 0) (synd.getD (n - i) 0)) 0
  if d = 0 then { q with gap := q.gap + 1 }
  else
    let c := polyAdd q.c (List.replicate q.gap 0 ++ polyScale (gfMul d (gfInv q.last)) q.b)
    if 2 * q.len ≤ n then { c := c, b := q.c, len := n + 1 - q.len, gap := 1, last := d }
    else { q with c := c, gap := q.gap + 1 }

/-- The error locator of the syndromes. -/
def rsLocator (t : Nat) (synd : List Sym) : Locator := (List.range (2 * t)).foldl (Locator.step synd) {}

/-- The error value at inverse locator `x⁻¹`, by Forney's formula for a generator whose first root is α⁰. -/
def rsMagnitude (t : Nat) (synd : List Sym) (loc : List Sym) (x xi : Sym) : Sym :=
  let omega := (List.range (2 * t)).map fun n =>
    (List.range (n + 1)).foldl (fun acc i => acc ^^^ gfMul (loc.getD i 0) (synd.getD (n - i) 0)) 0
  let slope := (List.range loc.length).map fun i => if i % 2 = 0 then loc.getD (i + 1) 0 else 0
  gfMul x (gfMul (polyEval omega xi) (gfInv (polyEval slope xi)))

/-- The corrected word that the locator gives: at each degree whose inverse locator is a root, the error value is taken off. -/
def rsCorrected (t : Nat) (synd : List Sym) (w : List Sym) : List Sym :=
  let loc := (rsLocator t synd).c
  w.mapIdx fun i c =>
    let x := gfExp (w.length - 1 - i)
    let xi := gfInv x
    if polyEval loc xi = 0 then c ^^^ rsMagnitude t synd loc x xi else c

/-- Places at which two words differ. -/
def wordDiff (a b : List Sym) : List Nat := (List.range a.length).filter fun i => a.getD i 0 ≠ b.getD i 0

/-- The codeword within `t` symbols of the received word, if there is one: a word that is not within reach of a codeword is
uncorrectable. -/
def rsDecode (t : Nat) (w : List Sym) : Option (List Sym) :=
  let synd := rsSyndromes t w
  if synd.all (· = 0) then some w
  else
    let v := rsCorrected t synd w
    if (rsSyndromes t v).all (· = 0) && decide ((wordDiff w v).length ≤ t) then some v else none

end Sys2Proof.Machine
end

