-- ==== Sys2Proof/Machine/Phy.lean ====
section
/-! DEFINITION. From flit bytes to lane symbols and back: symbols, codeword pairs, deals to lanes, lane modes, DAC codes,
scramblers, frames and the symbols of the Pofold link (R249 to R251, R312 to R314, R317, R318, R409 to R412). -/
namespace Sys2Proof.Machine

/-! ### Bits and symbols (R317) -/

/-- `n` bits of a number, the most significant first. -/
def bitsOf (n v : Nat) : List Bool := (List.range n).map fun i => v.testBit (n - 1 - i)

/-- The number that bits give, the most significant first. -/
def ofBits (b : List Bool) : Nat := b.foldl (fun n x => 2 * n + x.toNat) 0

/-- Bytes as one bit string: bit 7 of each byte first. -/
def bytesBits (b : List Byte) : List Bool := b.flatMap fun x => bitsOf 8 x.toNat

/-- A list in `count` pieces of `n`; a short last piece is filled with `z`. -/
def pieces {α : Type} (z : α) (n : Nat) : Nat → List α → List (List α)
  | 0, _ => []
  | k + 1, xs => ((xs.take n) ++ List.replicate (n - (xs.take n).length) z) :: pieces z n k (xs.drop n)

def bitSyms (b : List Bool) : List Sym := (pieces false 10 ((b.length + 9) / 10) b).map fun x => BitVec.ofNat 10 (ofBits x)
def symBits (xs : List Sym) : List Bool := xs.flatMap fun x => bitsOf 10 x.toNat
def bitBytes (b : List Bool) : List Byte := (pieces false 8 (b.length / 8) b).map fun x => BitVec.ofNat 8 (ofBits x)

/-- Data symbols of flits, padded with zero bits to an even number of symbols (R317, R318). -/
def flitSyms (bytes : List Byte) : List Sym :=
  let xs := bitSyms (bytesBits bytes)
  if xs.length % 2 = 0 then xs else xs ++ [0]

/-! ### Codeword pairs (R317) -/

/-- Every second element, from the first. -/
def evens {α : Type} : List α → List α
  | [] => []
  | [x] => [x]
  | x :: _ :: xs => x :: evens xs

def odds {α : Type} (xs : List α) : List α := evens (xs.drop 1)

/-- A₀, B₀, A₁, B₁ and so on. -/
def interleave {α : Type} : List α → List α → List α
  | a :: as, b :: bs => a :: b :: interleave as bs
  | as, [] => as
  | [], bs => bs

/-- A pair's symbols as sent: data, then parity. -/
def pairEncode (t : Nat) (data : List Sym) : List Sym := interleave (rsEncode t (evens data)) (rsEncode t (odds data))

/-- What a receiver makes of a codeword: its symbols, none of them corrected where it is uncorrectable. -/
structure Word10 where
  ok : Bool
  syms : List Sym
  /-- places that were corrected -/
  fixed : List Nat

def wordDecode (t : Nat) (w : List Sym) : Word10 :=
  match rsDecode t w with
  | some v => { ok := true, syms := v, fixed := wordDiff w v }
  | none => { ok := false, syms := w, fixed := [] }

/-- A pair as received: its data symbols, how many of its codewords are uncorrectable, and the places, as sent, of its
corrected symbols. -/
structure PairRx where
  data : List Sym
  lost : Nat
  fixed : List Nat

def pairDecode (t : Nat) (xs : List Sym) : PairRx :=
  let a := wordDecode t (evens xs)
  let b := wordDecode t (odds xs)
  { data := interleave (a.syms.take (a.syms.length - 2 * t)) (b.syms.take (b.syms.length - 2 * t))
    lost := (if a.ok then 0 else 1) + (if b.ok then 0 else 1)
    fixed := a.fixed.map (2 * ·) ++ b.fixed.map fun i => 2 * i + 1 }

/-! ### Blocks and bursts (R318) -/

/-- Data symbols of the pairs that carry `n` data symbols: 512 in each, the last one shortened. -/
def pairSizes (n : Nat) : List Nat := List.replicate (n / 512) 512 ++ (if n % 512 = 0 then [] else [n % 512])

/-- Consecutive runs of a list, of the lengths given. -/
def runsOf {α : Type} : List Nat → List α → List (List α)
  | [], _ => []
  | n :: ns, xs => xs.take n :: runsOf ns (xs.drop n)

/-- Flits as sent: cut into pairs from the first flit onwards. A block is two full pairs, so this serves blocks and bursts. -/
def flitsEncode (t : Nat) (bytes : List Byte) : List Sym :=
  let xs := flitSyms bytes
  (runsOf (pairSizes xs.length) xs).flatMap (pairEncode t)

/-- Data symbols of `n` flits, with the padding. -/
def dataSyms (n : Nat) : Nat := (2048 * n + 19) / 20 * 2

/-- Symbols that `n` flits occupy. -/
def codedSyms (t n : Nat) : Nat := ((pairSizes (dataSyms n)).map fun d => d + 4 * t).sum

/-- A received flit: its bytes, and whether a codeword that carries part of it is uncorrectable. -/
structure RxFlit where
  bytes : List Byte
  lost : Bool
deriving DecidableEq, Repr

/-- What a block or burst of `n` flits gives: the flits, the uncorrectable codewords, and the places of corrected symbols in the
order received. -/
structure CodedRx where
  flits : List RxFlit
  lost : Nat
  fixed : List Nat

/-- Places at which a flit's data symbols begin and end among those of its block or burst. -/
def flitSpan (i : Nat) : Nat × Nat := (2048 * i / 10, (2048 * (i + 1) + 9) / 10)

def flitsDecode (t n : Nat) (xs : List Sym) : CodedRx :=
  let sizes := pairSizes (dataSyms n)
  let pairs := (runsOf (sizes.map fun d => d + 4 * t) xs).map (pairDecode t)
  let data := bitBytes (symBits (pairs.flatMap (·.data)))
  let bad (i : Nat) : Bool :=
    let (a, b) := flitSpan i
    (List.range pairs.length).any fun j => decide (512 * j < b ∧ a < 512 * (j + 1)) && decide ((pairs[j]?.map (·.lost)).getD 0 ≠ 0)
  let starts := (List.range sizes.length).map fun j => ((sizes.take j).map fun d => d + 4 * t).sum
  { flits := (List.range n).map fun i => { bytes := (data.drop (256 * i)).take 256, lost := bad i }
    lost := (pairs.map (·.lost)).sum
    fixed := (pairs.zip starts).flatMap fun p => p.1.fixed.map (· + p.2) }

/-! ### Dealing to the data positions (R317) -/

/-- Symbols two at a time to `n` positions in turn. -/
def deal (n : Nat) (xs : List Sym) : List (List Sym) :=
  (List.range n).map fun j => (xs.zipIdx.filter fun x => x.2 / 2 % n = j).map (·.1)

/-- Two symbols from each position in turn, `n` times; a symbol that is missing is 0. -/
def gatherTurns : Nat → List (List Sym) → List Sym
  | 0, _ => []
  | n + 1, ls => (ls.flatMap fun l => [l.headD 0, (l.drop 1).headD 0]) ++ gatherTurns n (ls.map (·.drop 2))

/-- The first `total` symbols of a stream from those that each position carries. -/
def gather (lanes : List (List Sym)) (total : Nat) : List Sym :=
  let n := 2 * lanes.length
  (gatherTurns ((total + n - 1) / n) lanes).take total

/-! ### Lane modes (R249, R250): 0 NRZ, 1 PAM4, 2 PAM6 -/

def modeLevels (mode : Nat) : Nat := match mode with | 0 => 2 | 1 => 4 | _ => 6

/-- DAC resolution B. -/
def modeBits (mode : Nat) : Nat := match mode with | 0 => 4 | 1 => 6 | _ => 8

/-- The four levels by Gray code: 00, 01, 11 and 10. -/
def grayLevel (v : Nat) : Nat := match v with | 0 => 0 | 1 => 1 | 3 => 2 | _ => 3
def grayBits (level : Nat) : Nat := match level with | 0 => 0 | 1 => 1 | 2 => 3 | _ => 2

/-- The 32 pairs of levels that PAM6 sends, in ascending order of 6a + b. -/
def pam6Pairs : List (Nat × Nat) :=
  ((List.range 36).map fun v => (v / 6, v % 6)).filter fun p => !((p.1 = 0 || p.1 = 5) && (p.2 = 0 || p.2 = 5))

/-- Distance of two levels. -/
def levelGap (a b : Nat) : Nat := (a - b) + (b - a)

/-- The value of a received pair: its own, or that of the nearest permitted pair, the lower value on a tie. -/
def pam6Value (a b : Nat) : Nat :=
  let near (p : Nat × Nat) : Nat := levelGap p.1 a + levelGap p.2 b
  ((pam6Pairs.zipIdx.foldl (fun best p => if near p.1 < best.1 then (near p.1, p.2) else best) (100, 0))).2

/-- A received pair is one that is never sent. -/
def pam6Excluded (a b : Nat) : Bool := !pam6Pairs.contains (a, b)

/-- Bits as levels, the earlier bit more significant. -/
def toLevels (mode : Nat) (b : List Bool) : List Nat :=
  match mode with
  | 0 => b.map fun x => if x then 1 else 0
  | 1 => (pieces false 2 ((b.length + 1) / 2) b).map fun x => grayLevel (ofBits x)
  | _ => (pieces false 5 ((b.length + 4) / 5) b).flatMap fun x =>
    let p := (pam6Pairs[ofBits x]?).getD (0, 1)
    [p.1, p.2]

/-- Pairs of consecutive levels. -/
def levelPairs : List Nat → List (Nat × Nat)
  | a :: b :: xs => (a, b) :: levelPairs xs
  | _ => []

/-- Received levels as bits. -/
def fromLevels (mode : Nat) (ls : List Nat) : List Bool :=
  match mode with
  | 0 => ls.map (· ≠ 0)
  | 1 => ls.flatMap fun l => bitsOf 2 (grayBits l)
  | _ => (levelPairs ls).flatMap fun p => bitsOf 5 (pam6Value p.1 p.2)

/-- Ten-bit symbols of a lane in which PAM6 received an excluded pair: two pairs to a symbol. -/
def excludedSyms (mode : Nat) (ls : List Nat) : List Nat :=
  if mode < 2 then []
  else (((levelPairs ls).zipIdx.filter fun p => pam6Excluded p.1.1 p.1.2).map fun p => p.2 / 2).eraseDups

/-! ### The driver (R251) -/

/-- d_n of a symbol after its predecessor, from a level table and a coefficient, in B bits. -/
def dacCode (mode : Nat) (levels : List Nat) (pdc prev cur : Nat) : Nat :=
  let lvl (x : Nat) : Int := ((levels.getD x 0 : Nat) : Int)
  (min (max (lvl cur + ((pdc : Int) * (lvl cur - lvl prev)).fdiv 16) 0) (2 ^ modeBits mode - 1)).toNat

/-- What drives the 8-bit DAC: the upper B bits, the others 0. -/
def dacDrive (mode code : Nat) : Nat := code * 2 ^ (8 - modeBits mode)

/-- A lane's levels as its DAC is driven, from the level before them. -/
def driveLane (mode : Nat) (levels : List Nat) (pdc : Nat) : Nat → List Nat → List Nat
  | _, [] => []
  | prev, x :: xs => dacDrive mode (dacCode mode levels pdc prev x) :: driveLane mode levels pdc x xs

/-! ### Scramblers and fill (R313, R410) -/

/-- The scrambler x⁵⁸ + x³⁹ + 1 after `n` bits, and the bits: each is the sum of stages 58 and 39 and enters at stage 1, which bit
0 of the state holds (log entry 76). -/
def scramble : Nat → BitVec 58 → List Bool × BitVec 58
  | 0, r => ([], r)
  | n + 1, r =>
    let b := r.getLsbD 57 != r.getLsbD 38
    let rest := scramble n ((r <<< 1) ||| (if b then 1 else 0))
    (b :: rest.1, rest.2)

/-- All ones, but for the low bits, which hold a lane number in `w` bits. -/
def scramblerSeed (w lane : Nat) : BitVec 58 := BitVec.ofNat 58 ((2 ^ (58 - w) - 1) * 2 ^ w + lane % 2 ^ w)

def xorBits (a b : List Bool) : List Bool := (a.zip b).map fun p => p.1 != p.2

/-- `n` bits of PRBS-31 and the generator after them: x³¹ + x²⁸ + 1 (log entry 76). -/
def prbs31 : Nat → BitVec 31 → List Bool × BitVec 31
  | 0, r => ([], r)
  | n + 1, r =>
    let b := r.getLsbD 30 != r.getLsbD 27
    let rest := prbs31 n ((r <<< 1) ||| (if b then 1 else 0))
    (b :: rest.1, rest.2)

/-! ### Frames (R312 to R314) -/

/-- The commas, first bit leftmost. -/
def comma (gen : Bool) : BitVec 20 := if gen then 0x065AF#20 else 0xF9A50#20

/-- Bits in which two 20-bit patterns differ. -/
def bitGap (a b : BitVec 20) : Nat := ((List.range 20).filter fun i => a.getLsbD i != b.getLsbD i).length

/-- A received comma matches a pattern when at most 2 of its bits differ: the generation it shows, if it matches one. -/
def commaShows (c : BitVec 20) : Option Bool :=
  if bitGap c (comma false) ≤ 2 then some false else if bitGap c (comma true) ≤ 2 then some true else none

/-- Symbol places of a frame. -/
def framePlaces : Nat := 102

/-- A lane's 1,040 bits: the comma, then 1,020 bits of its symbols, filled up by its PRBS generator, scrambled. -/
def frameBits (gen : Bool) (lane : Nat) (syms : List Sym) (fill : BitVec 31) : List Bool × BitVec 31 :=
  let data := symBits (syms.take framePlaces)
  let more := prbs31 (1020 - data.length) fill
  (bitsOf 20 (comma gen).toNat ++ xorBits (data ++ more.1) (scramble 1020 (scramblerSeed 5 lane)).1, more.2)

/-- The 102 symbols of a received frame of a lane. -/
def frameSyms (lane : Nat) (b : List Bool) : List Sym :=
  bitSyms (xorBits ((b.drop 20).take 1020 ++ List.replicate (1040 - b.length) false) (scramble 1020 (scramblerSeed 5 lane)).1)

/-! ### Symbols of the Pofold link (R409 to R412) -/

/-- Control codes. -/
def kSync : Nat := 0x1E
def kTs : Nat := 0x2D
def kLock : Nat := 0x55
def kEidle : Nat := 0x78

/-- A control symbol: prefix 0b10, its code and the complement of its code. -/
def controlSym (code : Nat) : Nat := 2 * 2 ^ 16 + code * 256 + (255 - code)

/-- A data symbol: prefix 0b01. -/
def dataSym (v : Nat) : Nat := 2 ^ 16 + v % 2 ^ 16

/-- What a received symbol is. -/
inductive PflSym where
  | data (v : Nat)
  | control (code : Nat)
  /-- an invalid prefix, or a control symbol whose complement does not match: a data symbol in error -/
  | bad
deriving DecidableEq, Repr

def readSym (x : Nat) : PflSym :=
  let p := x / 2 ^ 16 % 4
  let hi := x / 256 % 256
  if p = 1 then .data (x % 2 ^ 16)
  else if p = 2 ∧ x % 256 = 255 - hi then .control hi
  else .bad

/-- A K.SYNC matches when at most 1 of its 18 bits differs. -/
def syncMatches (x : Nat) : Bool :=
  decide (((List.range 18).filter fun i => x.testBit i != (controlSym kSync).testBit i).length ≤ 1)

/-- 16 bits of the keystream as a number, the first bit most significant, and the state after them. -/
def keyWord (r : BitVec 58) : Nat × BitVec 58 := let k := scramble 16 r; (ofBits k.1, k.2)

/-- A flit's 128 data symbols: byte 2k in bits [15:8] of symbol k. -/
def flitWords (bytes : List Byte) : List Nat :=
  (pieces (0 : Byte) 2 128 bytes).map fun p => (p.headD 0).toNat * 256 + (p.getD 1 0).toNat

/-- Symbol k goes to lane k mod n. -/
def laneWords (n lane : Nat) (ws : List Nat) : List Nat := (ws.zipIdx.filter fun w => w.2 % n = lane).map (·.1)

end Sys2Proof.Machine
end

