-- ==== Sys2Proof/Machine/RegMap.lean ====
section
/-! DEFINITION. The register map (R9, R10, R551 to R556): every register of the management space with its address, its
instances, the power domain that holds it and its fields. A register the spec gives no reset value for (per unit, from
image, from record, from table, per start) starts at the value log entry 4 names. -/
namespace Sys2Proof.Machine

/-- Access kinds of R10. -/
inductive Access where
  | ro | rw | w1c | wo | rc
deriving DecidableEq, Repr

/-- A named field, bits `hi` down to `lo`. -/
structure RegField where
  name : String
  hi : Nat
  lo : Nat
  acc : Access
  reset : Nat
deriving DecidableEq, Repr

/-- What holds a register (R551, R553): the hub domain, the standby island (`stbyro` for its read-only regions), a tensor
die's domain, a base die's, the light supply's, or the hub's copy of TD_ID and TD_STATE. -/
inductive RegHome where
  | hub | stby | stbyro | td | pb | light | hubcopy
deriving DecidableEq, Repr

/-- A register or an array of registers: instance strides and counts, outermost first. -/
structure RegRow where
  name : String
  base : Nat
  dims : List (Nat × Nat)
  home : RegHome
  fields : List RegField
deriving DecidableEq, Repr

/-- Registers of the block at 0x0000_0000, part 1. -/
def regRows0a : List RegRow := [
  ⟨"HUB_ID", 0x0, [], .hub, [⟨"PART", 31, 16, .ro, 18450⟩, ⟨"HUB_STEP", 15, 8, .ro, 1⟩, ⟨"MOD_STEP", 7, 0, .ro, 1⟩]⟩,
  ⟨"HUB_INV", 0x4, [], .hub, [⟨"GS_POP", 16, 16, .ro, 0⟩, ⟨"PB_UP", 15, 12, .ro, 0⟩, ⟨"TD_UP", 11, 0, .ro, 0⟩]⟩,
  ⟨"HUB_MEMINV", 0x8, [], .hub, [⟨"M_UP", 31, 0, .ro, 0⟩]⟩,
  ⟨"HUB_ACELL_BUSY", 0x800, [(0x4, 8)], .hub, [⟨"BUSY", 31, 0, .ro, 0⟩]⟩,
  ⟨"HUB_ACELL_FREE", 0x820, [], .hub, [⟨"CELL", 7, 0, .wo, 0⟩]⟩,
  ⟨"HUB_SYNCVAL", 0x10000, [(0x4, 4096)], .hub, [⟨"VALUE", 19, 0, .rw, 0⟩]⟩,
  ⟨"HUB_SYNCCFG", 0x14000, [(0x4, 4096)], .hub, [⟨"EN", 15, 15, .rw, 0⟩, ⟨"MODE", 14, 14, .rw, 0⟩, ⟨"SAT", 13, 13, .w1c, 0⟩, ⟨"OWNER", 5, 0, .rw, 0⟩]⟩,
  ⟨"HUB_SYNCERR", 0x840, [], .hub, [⟨"VALID", 31, 31, .w1c, 0⟩, ⟨"CONTEXT", 27, 22, .ro, 0⟩, ⟨"DIE", 21, 18, .ro, 0⟩, ⟨"CALLER", 17, 16, .ro, 0⟩, ⟨"KIND", 15, 12, .ro, 0⟩, ⟨"OBJECT", 11, 0, .ro, 0⟩]⟩,
  ⟨"HUB_CTXSTATE", 0x2000, [(0x40, 64)], .hub, [⟨"ONCALL", 21, 16, .ro, 0⟩, ⟨"STATE", 2, 0, .ro, 0⟩]⟩,
  ⟨"HUB_CTXCFG", 0x2004, [(0x40, 64)], .hub, [⟨"DIES", 11, 0, .rw, 0⟩]⟩,
  ⟨"HUB_CTXSTEP0", 0x2008, [(0x40, 64)], .hub, [⟨"STEP_LO", 31, 0, .rw, 0⟩]⟩,
  ⟨"HUB_CTXSTEP1", 0x200c, [(0x40, 64)], .hub, [⟨"STEP_HI", 31, 0, .rw, 0⟩]⟩,
  ⟨"HUB_CTXRSEED0", 0x2010, [(0x40, 64)], .hub, [⟨"RSEED_LO", 31, 0, .rw, 0⟩]⟩,
  ⟨"HUB_CTXRSEED1", 0x2014, [(0x40, 64)], .hub, [⟨"RSEED_HI", 31, 0, .rw, 0⟩]⟩,
  ⟨"HUB_CTXSSEED0", 0x2018, [(0x40, 64)], .hub, [⟨"SSEED_LO", 31, 0, .rw, 0⟩]⟩,
  ⟨"HUB_CTXSSEED1", 0x201c, [(0x40, 64)], .hub, [⟨"SSEED_HI", 31, 0, .rw, 0⟩]⟩,
  ⟨"HUB_CTXPTR0", 0x2020, [(0x40, 64)], .hub, [⟨"PTR_LO", 31, 0, .rw, 0⟩]⟩,
  ⟨"HUB_CTXPTR1", 0x2024, [(0x40, 64)], .hub, [⟨"PTR_HI", 31, 0, .rw, 0⟩]⟩,
  ⟨"HUB_CTXSAVE0", 0x2028, [(0x40, 64)], .hub, [⟨"SAVE_LO", 31, 0, .ro, 0⟩]⟩,
  ⟨"HUB_CTXSAVE1", 0x202c, [(0x40, 64)], .hub, [⟨"SAVE_HI", 31, 0, .ro, 0⟩]⟩,
  ⟨"HUB_TLBINV0", 0x900, [], .hub, [⟨"VPN", 26, 0, .rw, 0⟩]⟩,
  ⟨"HUB_TLBINV1", 0x904, [], .hub, [⟨"GO", 31, 31, .wo, 0⟩, ⟨"SCOPE", 9, 8, .rw, 0⟩, ⟨"CONTEXT", 5, 0, .rw, 0⟩]⟩,
  ⟨"HUB_TLBSTAT", 0x908, [], .hub, [⟨"BUSY", 0, 0, .ro, 0⟩]⟩,
  ⟨"HUB_PDERR", 0x90c, [], .hub, [⟨"CORR", 31, 16, .rc, 0⟩, ⟨"UNCORR", 15, 0, .rc, 0⟩]⟩]

/-- Registers of the block at 0x0000_0000, part 2. -/
def regRows0b : List RegRow := [
  ⟨"HUB_RMTWIN.0", 0x940, [(0x8, 8)], .hub, [⟨"EN", 31, 31, .rw, 0⟩, ⟨"MODS", 27, 20, .rw, 0⟩, ⟨"BASE", 19, 0, .rw, 0⟩]⟩,
  ⟨"HUB_RMTWIN.1", 0x944, [(0x8, 8)], .hub, [⟨"WR", 31, 31, .rw, 0⟩, ⟨"LIMIT", 19, 0, .rw, 0⟩]⟩,
  ⟨"HUB_XLF.0", 0x3000, [(0x10, 48)], .hub, [⟨"VA_LO", 31, 0, .ro, 0⟩]⟩,
  ⟨"HUB_XLF.1", 0x3004, [(0x10, 48)], .hub, [⟨"VALID", 31, 31, .w1c, 0⟩, ⟨"TYPE", 30, 27, .ro, 0⟩, ⟨"WRITE", 26, 26, .ro, 0⟩, ⟨"STREAM", 25, 25, .ro, 0⟩, ⟨"SCALE", 24, 24, .ro, 0⟩, ⟨"CONTEXT", 21, 16, .ro, 0⟩, ⟨"VA_HI", 15, 0, .ro, 0⟩]⟩,
  ⟨"HUB_XLF.2", 0x3008, [(0x10, 48)], .hub, [⟨"SEGMENT", 31, 0, .ro, 0⟩]⟩,
  ⟨"HUB_XLF.3", 0x300c, [(0x10, 48)], .hub, [⟨"OPERATOR", 31, 16, .ro, 0⟩, ⟨"LAYER", 15, 0, .ro, 0⟩]⟩,
  ⟨"HUB_SLOT", 0xa00, [], .hub, [⟨"SLOT", 31, 0, .ro, 0⟩]⟩,
  ⟨"HUB_PLANCTL", 0xa04, [], .hub, [⟨"LOAD", 31, 31, .wo, 0⟩, ⟨"SWITCH", 30, 30, .wo, 0⟩]⟩,
  ⟨"HUB_PLANSTAT", 0xa08, [], .hub, [⟨"BUSY", 31, 31, .ro, 0⟩, ⟨"READY", 30, 30, .ro, 0⟩, ⟨"PENDING", 29, 29, .ro, 0⟩, ⟨"ACTIVE", 28, 28, .ro, 0⟩, ⟨"ERR", 27, 24, .ro, 0⟩, ⟨"ENTRY", 23, 12, .ro, 0⟩, ⟨"ROW", 11, 0, .ro, 0⟩]⟩,
  ⟨"HUB_LEDSTAT0", 0xa0c, [], .hub, [⟨"REPLAY_DEFER", 31, 16, .rc, 0⟩, ⟨"C4_CONTEND", 15, 0, .rc, 0⟩]⟩,
  ⟨"HUB_LEDSTAT1", 0xa10, [], .hub, [⟨"ROUTE_DEFER", 31, 16, .rc, 0⟩, ⟨"LOCK_FAIL", 15, 0, .rc, 0⟩]⟩,
  ⟨"HUB_MESHFAIL", 0xb00, [(0x4, 26)], .hub, [⟨"FAIL", 31, 0, .ro, 0⟩]⟩,
  ⟨"HUB_SPARE", 0xb80, [], .hub, [⟨"LOOP", 7, 0, .ro, 0⟩]⟩,
  ⟨"RNG_STATE", 0x30000, [(0x400, 4)], .hub, [⟨"USABLE", 20, 16, .ro, 0⟩, ⟨"MODE", 11, 10, .ro, 0⟩, ⟨"STATE", 2, 0, .ro, 0⟩]⟩,
  ⟨"RNG_STATE", 0x31000, [(0x400, 4)], .hub, [⟨"USABLE", 20, 16, .ro, 0⟩, ⟨"MODE", 11, 10, .ro, 0⟩, ⟨"STATE", 2, 0, .ro, 0⟩]⟩,
  ⟨"RNG_STATE", 0x32000, [(0x400, 8)], .hub, [⟨"USABLE", 20, 16, .ro, 0⟩, ⟨"MODE", 11, 10, .ro, 0⟩, ⟨"STATE", 2, 0, .ro, 0⟩]⟩,
  ⟨"RNG_CTL", 0x30004, [(0x400, 4)], .hub, [⟨"RETEST", 2, 2, .wo, 0⟩, ⟨"FF_EN", 1, 1, .rw, 0⟩, ⟨"PAM6_EN", 0, 0, .rw, 0⟩]⟩,
  ⟨"RNG_CTL", 0x31004, [(0x400, 4)], .hub, [⟨"RETEST", 2, 2, .wo, 0⟩, ⟨"FF_EN", 1, 1, .rw, 0⟩, ⟨"PAM6_EN", 0, 0, .rw, 0⟩]⟩,
  ⟨"RNG_CTL", 0x32004, [(0x400, 8)], .hub, [⟨"RETEST", 2, 2, .wo, 0⟩, ⟨"FF_EN", 1, 1, .rw, 0⟩, ⟨"PAM6_EN", 0, 0, .rw, 0⟩]⟩,
  ⟨"RNG_LOCK", 0x30008, [(0x400, 4)], .hub, [⟨"TX", 17, 0, .ro, 0⟩]⟩,
  ⟨"RNG_LOCK", 0x31008, [(0x400, 4)], .hub, [⟨"TX", 17, 0, .ro, 0⟩]⟩,
  ⟨"RNG_LOCK", 0x32008, [(0x400, 8)], .hub, [⟨"TX", 17, 0, .ro, 0⟩]⟩,
  ⟨"RNG_RXLOCK", 0x3000c, [(0x400, 4)], .hub, [⟨"RX", 17, 0, .ro, 0⟩]⟩,
  ⟨"RNG_RXLOCK", 0x3100c, [(0x400, 4)], .hub, [⟨"RX", 17, 0, .ro, 0⟩]⟩]

/-- Registers of the block at 0x0000_0000, part 3. -/
def regRows0c : List RegRow := [
  ⟨"RNG_RXLOCK", 0x3200c, [(0x400, 8)], .hub, [⟨"RX", 17, 0, .ro, 0⟩]⟩,
  ⟨"RNG_USE", 0x30010, [(0x400, 4)], .hub, [⟨"TX", 17, 0, .ro, 0⟩]⟩,
  ⟨"RNG_USE", 0x31010, [(0x400, 4)], .hub, [⟨"TX", 17, 0, .ro, 0⟩]⟩,
  ⟨"RNG_USE", 0x32010, [(0x400, 8)], .hub, [⟨"TX", 17, 0, .ro, 0⟩]⟩,
  ⟨"RNG_RXUSE", 0x30014, [(0x400, 4)], .hub, [⟨"RX", 17, 0, .ro, 0⟩]⟩,
  ⟨"RNG_RXUSE", 0x31014, [(0x400, 4)], .hub, [⟨"RX", 17, 0, .ro, 0⟩]⟩,
  ⟨"RNG_RXUSE", 0x32014, [(0x400, 8)], .hub, [⟨"RX", 17, 0, .ro, 0⟩]⟩,
  ⟨"RNG_SUSPECT", 0x30018, [(0x400, 4)], .hub, [⟨"SUSPECT", 17, 0, .w1c, 0⟩]⟩,
  ⟨"RNG_SUSPECT", 0x31018, [(0x400, 4)], .hub, [⟨"SUSPECT", 17, 0, .w1c, 0⟩]⟩,
  ⟨"RNG_SUSPECT", 0x32018, [(0x400, 8)], .hub, [⟨"SUSPECT", 17, 0, .w1c, 0⟩]⟩,
  ⟨"RNG_MARGIN", 0x3001c, [(0x400, 4)], .hub, [⟨"PAM6", 28, 24, .ro, 0⟩, ⟨"PAM4", 20, 16, .ro, 0⟩, ⟨"NRZ", 12, 8, .ro, 0⟩]⟩,
  ⟨"RNG_MARGIN", 0x3101c, [(0x400, 4)], .hub, [⟨"PAM6", 28, 24, .ro, 0⟩, ⟨"PAM4", 20, 16, .ro, 0⟩, ⟨"NRZ", 12, 8, .ro, 0⟩]⟩,
  ⟨"RNG_MARGIN", 0x3201c, [(0x400, 8)], .hub, [⟨"PAM6", 28, 24, .ro, 0⟩, ⟨"PAM4", 20, 16, .ro, 0⟩, ⟨"NRZ", 12, 8, .ro, 0⟩]⟩,
  ⟨"RNG_CALSTAT", 0x30020, [(0x400, 4)], .hub, [⟨"BUSY", 31, 31, .ro, 0⟩, ⟨"LANE", 28, 24, .ro, 0⟩, ⟨"RETRY", 23, 16, .rc, 0⟩, ⟨"TURNS", 15, 0, .rc, 0⟩]⟩,
  ⟨"RNG_CALSTAT", 0x31020, [(0x400, 4)], .hub, [⟨"BUSY", 31, 31, .ro, 0⟩, ⟨"LANE", 28, 24, .ro, 0⟩, ⟨"RETRY", 23, 16, .rc, 0⟩, ⟨"TURNS", 15, 0, .rc, 0⟩]⟩,
  ⟨"RNG_CALSTAT", 0x32020, [(0x400, 8)], .hub, [⟨"BUSY", 31, 31, .ro, 0⟩, ⟨"LANE", 28, 24, .ro, 0⟩, ⟨"RETRY", 23, 16, .rc, 0⟩, ⟨"TURNS", 15, 0, .rc, 0⟩]⟩,
  ⟨"RNG_FFCFG", 0x30024, [(0x400, 4)], .hub, [⟨"SUSP", 31, 31, .ro, 0⟩, ⟨"MISS", 27, 16, .rc, 0⟩, ⟨"TAU", 10, 0, .rw, 200⟩]⟩,
  ⟨"RNG_FFCFG", 0x31024, [(0x400, 4)], .hub, [⟨"SUSP", 31, 31, .ro, 0⟩, ⟨"MISS", 27, 16, .rc, 0⟩, ⟨"TAU", 10, 0, .rw, 200⟩]⟩,
  ⟨"RNG_FFCFG", 0x32024, [(0x400, 8)], .hub, [⟨"SUSP", 31, 31, .ro, 0⟩, ⟨"MISS", 27, 16, .rc, 0⟩, ⟨"TAU", 10, 0, .rw, 200⟩]⟩,
  ⟨"RNG_LANE", 0x30100, [(0x400, 4), (0x4, 18)], .hub, [⟨"TXROLE", 31, 29, .ro, 0⟩, ⟨"RXROLE", 28, 26, .ro, 0⟩, ⟨"MF", 7, 0, .ro, 0⟩]⟩,
  ⟨"RNG_LANE", 0x31100, [(0x400, 4), (0x4, 18)], .hub, [⟨"TXROLE", 31, 29, .ro, 0⟩, ⟨"RXROLE", 28, 26, .ro, 0⟩, ⟨"MF", 7, 0, .ro, 0⟩]⟩,
  ⟨"RNG_LANE", 0x32100, [(0x400, 8), (0x4, 18)], .hub, [⟨"TXROLE", 31, 29, .ro, 0⟩, ⟨"RXROLE", 28, 26, .ro, 0⟩, ⟨"MF", 7, 0, .ro, 0⟩]⟩,
  ⟨"RNG_HEAT", 0x30180, [(0x400, 4), (0x4, 18)], .hub, [⟨"TX", 27, 16, .ro, 0⟩, ⟨"RX", 11, 0, .ro, 0⟩]⟩,
  ⟨"RNG_HEAT", 0x31180, [(0x400, 4), (0x4, 18)], .hub, [⟨"TX", 27, 16, .ro, 0⟩, ⟨"RX", 11, 0, .ro, 0⟩]⟩]

/-- Registers of the block at 0x0000_0000, part 4. -/
def regRows0d : List RegRow := [
  ⟨"RNG_HEAT", 0x32180, [(0x400, 8), (0x4, 18)], .hub, [⟨"TX", 27, 16, .ro, 0⟩, ⟨"RX", 11, 0, .ro, 0⟩]⟩,
  ⟨"HUB_CALCTL", 0xc00, [], .hub, [⟨"EN", 31, 31, .rw, 1⟩, ⟨"INTERVAL", 13, 0, .rw, 100⟩]⟩,
  ⟨"HUB_LGT", 0xc04, [], .hub, [⟨"SAVE", 31, 31, .wo, 0⟩, ⟨"BUSY", 30, 30, .ro, 0⟩, ⟨"VALID_A", 27, 27, .ro, 0⟩, ⟨"VALID_B", 26, 26, .ro, 0⟩, ⟨"ACTIVE", 25, 25, .ro, 0⟩, ⟨"FULL", 24, 24, .ro, 0⟩, ⟨"GEN", 23, 0, .ro, 0⟩]⟩,
  ⟨"MM_CFG", 0xd00, [], .hub, [⟨"MODS", 15, 8, .ro, 0⟩, ⟨"MODNUM", 2, 0, .ro, 0⟩]⟩,
  ⟨"MM_ALIGN", 0xd04, [], .hub, [⟨"REALIGN", 31, 31, .wo, 0⟩, ⟨"LATE", 23, 16, .rc, 0⟩, ⟨"MAXOFF", 15, 8, .ro, 0⟩, ⟨"STATE", 2, 0, .ro, 0⟩]⟩,
  ⟨"MM_PEER", 0xd08, [], .hub, [⟨"MISCABLE", 31, 16, .w1c, 0⟩, ⟨"PEER", 15, 0, .ro, 0⟩]⟩,
  ⟨"MM_SYNC", 0xd0c, [], .hub, [⟨"OUT_EN", 31, 31, .rw, 0⟩, ⟨"IN_VALID", 30, 30, .ro, 0⟩, ⟨"IN_OFF", 15, 0, .ro, 0⟩]⟩,
  ⟨"MM_LINK", 0xd40, [(0x4, 16)], .hub, [⟨"DELAY", 31, 16, .ro, 0⟩, ⟨"OFFSET", 15, 0, .ro, 0⟩]⟩,
  ⟨"PRT_CFG", 0xd80, [], .hub, [⟨"EN", 31, 31, .rw, 0⟩, ⟨"PRIMARY", 30, 30, .rw, 0⟩, ⟨"FAILBACK", 29, 29, .rw, 0⟩, ⟨"PARTNER", 26, 24, .rw, 0⟩, ⟨"GROUP", 23, 16, .rw, 0⟩, ⟨"HOLD", 15, 8, .rw, 0⟩, ⟨"HOLDOFF", 7, 0, .rw, 0⟩]⟩,
  ⟨"PRT_CTL", 0xd84, [], .hub, [⟨"SOLO", 2, 2, .wo, 0⟩, ⟨"JOIN", 1, 1, .wo, 0⟩, ⟨"YIELD", 0, 0, .wo, 0⟩]⟩,
  ⟨"PRT_STATE", 0xd88, [], .hub, [⟨"CAUSE", 19, 16, .ro, 0⟩, ⟨"CLEAN", 3, 3, .ro, 0⟩, ⟨"STATE", 2, 0, .ro, 0⟩]⟩,
  ⟨"PRT_CNT", 0xd8c, [], .hub, [⟨"TAKEOVERS", 31, 24, .rc, 0⟩, ⟨"GRANTMISS", 23, 16, .rc, 0⟩, ⟨"HOLDDROP", 15, 0, .rc, 0⟩]⟩,
  ⟨"PRT_COPY", 0xd90, [], .hub, [⟨"ROUND", 31, 28, .ro, 0⟩, ⟨"REMAIN", 27, 0, .ro, 0⟩]⟩,
  ⟨"MC_CTL", 0xdc0, [], .hub, [⟨"EN", 31, 31, .rw, 0⟩]⟩,
  ⟨"MC_STAT", 0xdc4, [], .hub, [⟨"HALTED", 31, 31, .ro, 0⟩, ⟨"PENDING", 26, 16, .ro, 0⟩, ⟨"COMPARED", 15, 0, .rc, 0⟩]⟩,
  ⟨"MC_FIRST0", 0xdc8, [], .hub, [⟨"VALID", 31, 31, .w1c, 0⟩, ⟨"CAUSE", 17, 16, .ro, 0⟩, ⟨"CALLER", 13, 12, .ro, 0⟩, ⟨"DIE", 11, 8, .ro, 0⟩, ⟨"CONTEXT", 5, 0, .ro, 0⟩]⟩,
  ⟨"MC_FIRST1", 0xdcc, [], .hub, [⟨"OPERATOR", 31, 16, .ro, 0⟩, ⟨"LAYER", 15, 0, .ro, 0⟩]⟩,
  ⟨"MC_FIRST2", 0xdd0, [], .hub, [⟨"PC", 23, 0, .ro, 0⟩]⟩,
  ⟨"MC_FIRST3", 0xdd4, [], .hub, [⟨"CMPSEQ", 31, 16, .ro, 0⟩, ⟨"STEP", 15, 0, .ro, 0⟩]⟩,
  ⟨"HUB_MODE", 0x10, [], .hub, [⟨"LOCK", 1, 1, .rw, 0⟩, ⟨"DET_STRICT", 0, 0, .rw, 0⟩]⟩,
  ⟨"HUB_DETTAINT0", 0x14, [], .hub, [⟨"TAINT", 31, 0, .w1c, 0⟩]⟩,
  ⟨"HUB_DETTAINT1", 0x18, [], .hub, [⟨"TAINT", 31, 0, .w1c, 0⟩]⟩,
  ⟨"HUB_BOOT", 0xe00, [], .stby, [⟨"STATE", 31, 28, .ro, 0⟩, ⟨"FAIL_A", 27, 24, .ro, 15⟩, ⟨"FAIL_B", 23, 20, .ro, 15⟩, ⟨"SLOT", 19, 19, .ro, 0⟩, ⟨"FALLBACK", 18, 18, .ro, 0⟩, ⟨"ID_OK", 17, 17, .ro, 0⟩, ⟨"WARM", 16, 16, .ro, 0⟩, ⟨"TIME", 15, 0, .ro, 0⟩]⟩,
  ⟨"HUB_RST", 0xe04, [], .stby, [⟨"KEY", 31, 24, .wo, 0⟩, ⟨"QUIESCE", 1, 1, .wo, 0⟩, ⟨"WARM", 0, 0, .wo, 0⟩]⟩]

/-- Registers of the block at 0x0000_0000, part 5. -/
def regRows0e : List RegRow := [
  ⟨"HUB_FWVER", 0xe08, [], .stby, [⟨"VERSION", 31, 0, .ro, 0⟩]⟩,
  ⟨"HUB_IMGGEN", 0xe0c, [], .stby, [⟨"GEN", 31, 0, .ro, 0⟩]⟩,
  ⟨"HUB_CERTLEN", 0xe1c, [], .stby, [⟨"LEN", 11, 0, .ro, 0⟩]⟩,
  ⟨"HUB_FLASHCTL", 0xe10, [], .stby, [⟨"GO", 31, 31, .wo, 0⟩, ⟨"BUSY", 30, 30, .ro, 0⟩, ⟨"ERR", 27, 24, .ro, 0⟩, ⟨"OP", 1, 0, .rw, 0⟩]⟩,
  ⟨"HUB_FLASHADDR", 0xe14, [], .stby, [⟨"ADDR", 24, 0, .rw, 0⟩]⟩,
  ⟨"HUB_ATTCTL", 0xe18, [], .stby, [⟨"GO", 31, 31, .wo, 0⟩, ⟨"BUSY", 30, 30, .ro, 0⟩, ⟨"VALID", 29, 29, .ro, 0⟩]⟩,
  ⟨"HUB_NONCE", 0xe80, [(0x4, 12)], .stby, [⟨"NONCE", 31, 0, .rw, 0⟩]⟩,
  ⟨"HUB_ATTREP", 0xf00, [(0x4, 128)], .stbyro, [⟨"WORD", 31, 0, .ro, 0⟩]⟩,
  ⟨"HUB_CERT", 0x4000, [(0x4, 512)], .stbyro, [⟨"WORD", 31, 0, .ro, 0⟩]⟩,
  ⟨"HUB_FLASHBUF", 0x5000, [(0x4, 64)], .stby, [⟨"WORD", 31, 0, .rw, 0⟩]⟩,
  ⟨"PLAN_A", 0x400000, [(0x4, 1048576)], .hub, [⟨"WORD", 31, 0, .rw, 0⟩]⟩,
  ⟨"PLAN_B", 0x800000, [(0x4, 1048576)], .hub, [⟨"WORD", 31, 0, .rw, 0⟩]⟩,
  ⟨"RESERVED_CTX", 0x2030, [(0x40, 64), (0x4, 4)], .hub, []⟩]

def regRows0 : List RegRow := regRows0a ++ regRows0b ++ regRows0c ++ regRows0d ++ regRows0e

/-- Registers of the block at 0x0100_0000. -/
def regRows1 : List RegRow := [
  ⟨"TD_NUMSTAT", 0x1000400, [(0x100000, 12)], .td, [⟨"MODE_REJ", 7, 7, .w1c, 0⟩, ⟨"CELL_ERR", 6, 6, .w1c, 0⟩, ⟨"QSAT", 5, 5, .w1c, 0⟩, ⟨"OVF", 4, 4, .w1c, 0⟩, ⟨"FTZ", 3, 3, .w1c, 0⟩, ⟨"NAN", 2, 2, .w1c, 0⟩, ⟨"TRUNC", 1, 1, .w1c, 0⟩, ⟨"INV", 0, 0, .w1c, 0⟩]⟩,
  ⟨"TD_NUMFIRST0", 0x1000404, [(0x100000, 12)], .td, [⟨"LAYER", 31, 16, .ro, 0⟩, ⟨"OPERATOR", 15, 0, .ro, 0⟩]⟩,
  ⟨"TD_NUMFIRST1", 0x1000408, [(0x100000, 12)], .td, [⟨"VALID", 31, 31, .w1c, 0⟩, ⟨"CALLER", 15, 14, .ro, 0⟩, ⟨"CONTEXT", 13, 8, .ro, 0⟩, ⟨"FLAGS", 7, 0, .ro, 0⟩]⟩,
  ⟨"TD_ID", 0x1000000, [(0x100000, 12)], .hubcopy, [⟨"STEP", 23, 16, .ro, 1⟩, ⟨"DIE", 3, 0, .ro, 0⟩]⟩,
  ⟨"TD_STATE", 0x1000004, [(0x100000, 12)], .hubcopy, [⟨"LIMITED", 7, 7, .ro, 0⟩, ⟨"STATE", 2, 0, .ro, 0⟩]⟩,
  ⟨"TD_RATE", 0x1000008, [(0x100000, 12)], .td, [⟨"STEPS", 15, 0, .ro, 0⟩]⟩,
  ⟨"TD_SRAMERR", 0x1000100, [(0x100000, 12)], .td, [⟨"CORR", 31, 16, .rc, 0⟩, ⟨"UNCORR", 15, 0, .rc, 0⟩]⟩,
  ⟨"TD_SRAMFIRST0", 0x1000104, [(0x100000, 12)], .td, [⟨"ADDR", 26, 0, .ro, 0⟩]⟩,
  ⟨"TD_SRAMFIRST1", 0x1000108, [(0x100000, 12)], .td, [⟨"VALID", 31, 31, .w1c, 0⟩, ⟨"MASTER", 30, 28, .ro, 0⟩, ⟨"CONTEXT", 27, 22, .ro, 0⟩]⟩,
  ⟨"TD_MVSTAT", 0x1000200, [(0x100000, 12)], .td, [⟨"HIWATER", 24, 16, .rc, 0⟩, ⟨"INUSE", 8, 0, .ro, 0⟩]⟩,
  ⟨"TD_PORTSTAT", 0x1000300, [(0x100000, 12), (0x4, 8)], .td, [⟨"LANES", 20, 16, .ro, 0⟩, ⟨"MODE", 9, 8, .ro, 0⟩, ⟨"HELD", 1, 1, .ro, 0⟩, ⟨"UP", 0, 0, .ro, 0⟩]⟩,
  ⟨"TD_UNITSTAT", 0x1000500, [(0x100000, 12)], .td, [⟨"SU_DUP", 5, 5, .w1c, 0⟩, ⟨"SU_EMPTY", 4, 4, .w1c, 0⟩, ⟨"SU_NAN", 3, 3, .w1c, 0⟩, ⟨"IDX_RANGE", 2, 2, .w1c, 0⟩, ⟨"SRAM_WIN", 1, 1, .w1c, 0⟩, ⟨"LAND_COLL", 0, 0, .w1c, 0⟩]⟩,
  ⟨"TD_CTXWIN", 0x1001000, [(0x100000, 12), (0x4, 64)], .td, [⟨"LIMIT", 26, 16, .rw, 0⟩, ⟨"EN", 15, 15, .rw, 0⟩, ⟨"BASE", 10, 0, .rw, 0⟩]⟩,
  ⟨"TD_CTXTAB", 0x1001400, [(0x100000, 12), (0x10, 64), (0x4, 4)], .td, [⟨"EN", 31, 31, .rw, 0⟩, ⟨"BASE", 26, 0, .rw, 0⟩]⟩,
  ⟨"TD_CALLSTATE", 0x1002000, [(0x100000, 12), (0x40, 4)], .td, [⟨"FIGERR", 23, 20, .ro, 0⟩, ⟨"CONTEXT", 19, 14, .ro, 0⟩, ⟨"STATE", 2, 0, .ro, 0⟩]⟩,
  ⟨"TD_CALLPC", 0x1002004, [(0x100000, 12), (0x40, 4)], .td, [⟨"PC", 23, 0, .ro, 0⟩]⟩,
  ⟨"TD_CALLANCH0", 0x1002008, [(0x100000, 12), (0x40, 4)], .td, [⟨"ANCHOR_LO", 31, 0, .ro, 0⟩]⟩,
  ⟨"TD_CALLANCH1", 0x100200c, [(0x100000, 12), (0x40, 4)], .td, [⟨"ANCHOR_HI", 31, 0, .ro, 0⟩]⟩,
  ⟨"TD_CALLSLIP", 0x1002010, [(0x100000, 12), (0x40, 4)], .td, [⟨"LAST", 31, 0, .ro, 0⟩]⟩,
  ⟨"TD_CALLSLIPMAX", 0x1002014, [(0x100000, 12), (0x40, 4)], .td, [⟨"MAX", 31, 0, .rc, 0⟩]⟩,
  ⟨"TD_CALLSLIPSUM", 0x1002018, [(0x100000, 12), (0x40, 4)], .td, [⟨"SUM", 31, 0, .rc, 0⟩]⟩,
  ⟨"TD_CALLCAUSE", 0x100201c, [(0x100000, 12), (0x40, 4)], .td, [⟨"WAIT", 29, 20, .rc, 0⟩, ⟨"ACK", 19, 10, .rc, 0⟩, ⟨"FLOOR", 9, 0, .rc, 0⟩]⟩,
  ⟨"TD_CALLFETCH", 0x1002020, [(0x100000, 12), (0x40, 4)], .td, [⟨"FETCH", 9, 0, .rc, 0⟩]⟩,
  ⟨"RESERVED_CALL", 0x1002024, [(0x100000, 12), (0x40, 4), (0x4, 7)], .td, []⟩]

/-- Registers of the block at 0x0200_0000, part 1. -/
def regRows2a : List RegRow := [
  ⟨"PB_MEMSTAT", 0x2000100, [(0x100000, 4), (0x4, 8)], .pb, [⟨"TEMP", 15, 8, .ro, 0⟩, ⟨"SPEED", 5, 4, .ro, 0⟩, ⟨"STATE", 2, 0, .ro, 0⟩]⟩,
  ⟨"PB_MEMCTL", 0x2000140, [(0x100000, 4), (0x4, 8)], .pb, [⟨"SCRUB", 1, 1, .rw, 1⟩, ⟨"RETRAIN", 0, 0, .wo, 0⟩]⟩,
  ⟨"PB_MEMERR", 0x2000120, [(0x100000, 4), (0x4, 8)], .pb, [⟨"CORR", 31, 16, .rc, 0⟩, ⟨"UNCORR", 15, 0, .rc, 0⟩]⟩,
  ⟨"PB_MCTAG", 0x2000160, [(0x100000, 4)], .pb, [⟨"HIWATER", 26, 16, .rc, 0⟩, ⟨"INUSE", 10, 0, .ro, 0⟩]⟩,
  ⟨"RNG_STATE", 0x2010000, [(0x100000, 4), (0x400, 24)], .pb, [⟨"USABLE", 20, 16, .ro, 0⟩, ⟨"MODE", 11, 10, .ro, 0⟩, ⟨"STATE", 2, 0, .ro, 0⟩]⟩,
  ⟨"RNG_STATE", 0x2016000, [(0x100000, 4)], .pb, [⟨"USABLE", 20, 16, .ro, 0⟩, ⟨"MODE", 11, 10, .ro, 0⟩, ⟨"STATE", 2, 0, .ro, 0⟩]⟩,
  ⟨"RNG_CTL", 0x2010004, [(0x100000, 4), (0x400, 24)], .pb, [⟨"RETEST", 2, 2, .wo, 0⟩, ⟨"FF_EN", 1, 1, .rw, 1⟩, ⟨"PAM6_EN", 0, 0, .rw, 0⟩]⟩,
  ⟨"RNG_CTL", 0x2016004, [(0x100000, 4)], .pb, [⟨"RETEST", 2, 2, .wo, 0⟩, ⟨"FF_EN", 1, 1, .rw, 0⟩, ⟨"PAM6_EN", 0, 0, .rw, 0⟩]⟩,
  ⟨"RNG_LOCK", 0x2010008, [(0x100000, 4), (0x400, 24)], .pb, [⟨"TX", 17, 0, .ro, 0⟩]⟩,
  ⟨"RNG_LOCK", 0x2016008, [(0x100000, 4)], .pb, [⟨"TX", 17, 0, .ro, 0⟩]⟩,
  ⟨"RNG_RXLOCK", 0x201000c, [(0x100000, 4), (0x400, 24)], .pb, [⟨"RX", 17, 0, .ro, 0⟩]⟩,
  ⟨"RNG_RXLOCK", 0x201600c, [(0x100000, 4)], .pb, [⟨"RX", 17, 0, .ro, 0⟩]⟩,
  ⟨"RNG_USE", 0x2010010, [(0x100000, 4), (0x400, 24)], .pb, [⟨"TX", 17, 0, .ro, 0⟩]⟩,
  ⟨"RNG_USE", 0x2016010, [(0x100000, 4)], .pb, [⟨"TX", 17, 0, .ro, 0⟩]⟩,
  ⟨"RNG_RXUSE", 0x2010014, [(0x100000, 4), (0x400, 24)], .pb, [⟨"RX", 17, 0, .ro, 0⟩]⟩,
  ⟨"RNG_RXUSE", 0x2016014, [(0x100000, 4)], .pb, [⟨"RX", 17, 0, .ro, 0⟩]⟩,
  ⟨"RNG_SUSPECT", 0x2010018, [(0x100000, 4), (0x400, 24)], .pb, [⟨"SUSPECT", 17, 0, .w1c, 0⟩]⟩,
  ⟨"RNG_SUSPECT", 0x2016018, [(0x100000, 4)], .pb, [⟨"SUSPECT", 17, 0, .w1c, 0⟩]⟩,
  ⟨"RNG_MARGIN", 0x201001c, [(0x100000, 4), (0x400, 24)], .pb, [⟨"PAM6", 28, 24, .ro, 0⟩, ⟨"PAM4", 20, 16, .ro, 0⟩, ⟨"NRZ", 12, 8, .ro, 0⟩]⟩,
  ⟨"RNG_MARGIN", 0x201601c, [(0x100000, 4)], .pb, [⟨"PAM6", 28, 24, .ro, 0⟩, ⟨"PAM4", 20, 16, .ro, 0⟩, ⟨"NRZ", 12, 8, .ro, 0⟩]⟩,
  ⟨"RNG_CALSTAT", 0x2010020, [(0x100000, 4), (0x400, 24)], .pb, [⟨"BUSY", 31, 31, .ro, 0⟩, ⟨"LANE", 28, 24, .ro, 0⟩, ⟨"RETRY", 23, 16, .rc, 0⟩, ⟨"TURNS", 15, 0, .rc, 0⟩]⟩,
  ⟨"RNG_CALSTAT", 0x2016020, [(0x100000, 4)], .pb, [⟨"BUSY", 31, 31, .ro, 0⟩, ⟨"LANE", 28, 24, .ro, 0⟩, ⟨"RETRY", 23, 16, .rc, 0⟩, ⟨"TURNS", 15, 0, .rc, 0⟩]⟩,
  ⟨"RNG_FFCFG", 0x2010024, [(0x100000, 4), (0x400, 24)], .pb, [⟨"SUSP", 31, 31, .ro, 0⟩, ⟨"MISS", 27, 16, .rc, 0⟩, ⟨"TAU", 10, 0, .rw, 200⟩]⟩,
  ⟨"RNG_FFCFG", 0x2016024, [(0x100000, 4)], .pb, [⟨"SUSP", 31, 31, .ro, 0⟩, ⟨"MISS", 27, 16, .rc, 0⟩, ⟨"TAU", 10, 0, .rw, 200⟩]⟩]

/-- Registers of the block at 0x0200_0000, part 2. -/
def regRows2b : List RegRow := [
  ⟨"RNG_LANE", 0x2010100, [(0x100000, 4), (0x400, 24), (0x4, 18)], .pb, [⟨"TXROLE", 31, 29, .ro, 0⟩, ⟨"RXROLE", 28, 26, .ro, 0⟩, ⟨"MF", 7, 0, .ro, 0⟩]⟩,
  ⟨"RNG_LANE", 0x2016100, [(0x100000, 4), (0x4, 18)], .pb, [⟨"TXROLE", 31, 29, .ro, 0⟩, ⟨"RXROLE", 28, 26, .ro, 0⟩, ⟨"MF", 7, 0, .ro, 0⟩]⟩,
  ⟨"RNG_HEAT", 0x2010180, [(0x100000, 4), (0x400, 24), (0x4, 18)], .pb, [⟨"TX", 27, 16, .ro, 0⟩, ⟨"RX", 11, 0, .ro, 0⟩]⟩,
  ⟨"RNG_HEAT", 0x2016180, [(0x100000, 4), (0x4, 18)], .pb, [⟨"TX", 27, 16, .ro, 0⟩, ⟨"RX", 11, 0, .ro, 0⟩]⟩]

def regRows2 : List RegRow := regRows2a ++ regRows2b

/-- Registers of the block at 0x0300_0000. -/
def regRows3 : List RegRow := [
  ⟨"LB_STATE", 0x3000000, [(0x10000, 8)], .light, [⟨"LOST", 20, 16, .ro, 0⟩, ⟨"SPARES", 9, 8, .ro, 0⟩, ⟨"HO_LINE", 4, 0, .ro, 31⟩]⟩,
  ⟨"LB_CTL", 0x3000004, [(0x10000, 8)], .light, [⟨"FADE_EN", 31, 31, .rw, 1⟩, ⟨"LINE", 20, 16, .rw, 0⟩, ⟨"HO_GO", 15, 15, .wo, 0⟩, ⟨"DRV_MAX", 8, 0, .rw, 350⟩]⟩,
  ⟨"LB_EVT", 0x3000008, [(0x10000, 8)], .light, [⟨"HANDOVERS", 31, 24, .rc, 0⟩, ⟨"SPAREFAIL", 23, 16, .rc, 0⟩, ⟨"RAISES", 15, 0, .rc, 0⟩]⟩,
  ⟨"LB_LINE", 0x3000100, [(0x10000, 8), (0x4, 18)], .light, [⟨"STATE", 31, 29, .ro, 0⟩, ⟨"SOURCE", 28, 27, .ro, 0⟩, ⟨"LMF_NONE", 26, 26, .ro, 1⟩, ⟨"NOTLASER", 24, 24, .w1c, 0⟩, ⟨"LMF", 23, 16, .ro, 0⟩, ⟨"DRIVE", 8, 0, .ro, 0⟩]⟩,
  ⟨"LB_MON", 0x3000180, [(0x10000, 8), (0x4, 20)], .light, [⟨"REF", 31, 16, .ro, 0⟩, ⟨"PWR", 15, 0, .ro, 0⟩]⟩,
  ⟨"LB_SPARE", 0x3000200, [(0x10000, 8), (0x4, 2)], .light, [⟨"STATE", 31, 30, .ro, 0⟩, ⟨"LINE", 4, 0, .ro, 0⟩]⟩]

/-- Registers of the block at 0x0400_0000, part 1. -/
def regRows4a : List RegRow := [
  ⟨"RNG_STATE", 0x4001000, [(0x10000, 16)], .hub, [⟨"USABLE", 20, 16, .ro, 0⟩, ⟨"MODE", 11, 10, .ro, 0⟩, ⟨"STATE", 2, 0, .ro, 0⟩]⟩,
  ⟨"RNG_CTL", 0x4001004, [(0x10000, 16)], .hub, [⟨"RETEST", 2, 2, .wo, 0⟩, ⟨"FF_EN", 1, 1, .rw, 0⟩, ⟨"PAM6_EN", 0, 0, .rw, 0⟩]⟩,
  ⟨"RNG_LOCK", 0x4001008, [(0x10000, 16)], .hub, [⟨"TX", 17, 0, .ro, 0⟩]⟩,
  ⟨"RNG_RXLOCK", 0x400100c, [(0x10000, 16)], .hub, [⟨"RX", 17, 0, .ro, 0⟩]⟩,
  ⟨"RNG_USE", 0x4001010, [(0x10000, 16)], .hub, [⟨"TX", 17, 0, .ro, 0⟩]⟩,
  ⟨"RNG_RXUSE", 0x4001014, [(0x10000, 16)], .hub, [⟨"RX", 17, 0, .ro, 0⟩]⟩,
  ⟨"RNG_SUSPECT", 0x4001018, [(0x10000, 16)], .hub, [⟨"SUSPECT", 17, 0, .w1c, 0⟩]⟩,
  ⟨"RNG_MARGIN", 0x400101c, [(0x10000, 16)], .hub, [⟨"PAM6", 28, 24, .ro, 0⟩, ⟨"PAM4", 20, 16, .ro, 0⟩, ⟨"NRZ", 12, 8, .ro, 0⟩]⟩,
  ⟨"RNG_CALSTAT", 0x4001020, [(0x10000, 16)], .hub, [⟨"BUSY", 31, 31, .ro, 0⟩, ⟨"LANE", 28, 24, .ro, 0⟩, ⟨"RETRY", 23, 16, .rc, 0⟩, ⟨"TURNS", 15, 0, .rc, 0⟩]⟩,
  ⟨"RNG_FFCFG", 0x4001024, [(0x10000, 16)], .hub, [⟨"SUSP", 31, 31, .ro, 0⟩, ⟨"MISS", 27, 16, .rc, 0⟩, ⟨"TAU", 10, 0, .rw, 200⟩]⟩,
  ⟨"RNG_LANE", 0x4001100, [(0x10000, 16), (0x4, 18)], .hub, [⟨"TXROLE", 31, 29, .ro, 0⟩, ⟨"RXROLE", 28, 26, .ro, 0⟩, ⟨"MF", 7, 0, .ro, 0⟩]⟩,
  ⟨"RNG_HEAT", 0x4001180, [(0x10000, 16), (0x4, 18)], .hub, [⟨"TX", 27, 16, .ro, 0⟩, ⟨"RX", 11, 0, .ro, 0⟩]⟩,
  ⟨"EYE_STATE", 0x4002000, [(0x10000, 16)], .hub, [⟨"CAUSE", 7, 4, .ro, 0⟩, ⟨"FERRULE", 3, 3, .ro, 0⟩, ⟨"STATE", 2, 0, .ro, 1⟩]⟩,
  ⟨"EYE_CTL", 0x4002004, [(0x10000, 16)], .hub, [⟨"FORCE_DARK", 0, 0, .rw, 0⟩]⟩,
  ⟨"EYE_CNT", 0x4002008, [(0x10000, 16)], .hub, [⟨"DARKEN", 31, 16, .rc, 0⟩, ⟨"PROBES", 15, 0, .rc, 0⟩]⟩,
  ⟨"LNK_STATE", 0x4000000, [(0x10000, 16)], .hub, [⟨"CAUSE", 15, 12, .ro, 0⟩, ⟨"FLUSHED", 9, 9, .w1c, 0⟩, ⟨"GRACE", 8, 8, .ro, 0⟩, ⟨"RTFAIL", 5, 4, .ro, 0⟩, ⟨"STATE", 2, 0, .ro, 0⟩]⟩,
  ⟨"LNK_WIDTH", 0x4000004, [(0x10000, 16)], .hub, [⟨"LANES", 28, 24, .ro, 0⟩, ⟨"MODE", 21, 20, .ro, 0⟩, ⟨"FEC", 19, 19, .ro, 0⟩, ⟨"GEN", 18, 18, .ro, 0⟩, ⟨"TXMAP", 17, 0, .ro, 0⟩]⟩,
  ⟨"LNK_RXMAP", 0x4000008, [(0x10000, 16)], .hub, [⟨"GEN", 18, 18, .ro, 0⟩, ⟨"RXMAP", 17, 0, .ro, 0⟩]⟩,
  ⟨"LNK_CFG", 0x400000c, [(0x10000, 16)], .hub, [⟨"GRACE", 22, 16, .rw, 10⟩, ⟨"RTIMER", 15, 8, .rw, 8⟩, ⟨"FEC_MIN", 2, 2, .rw, 0⟩, ⟨"MODE_MAX", 1, 0, .rw, 1⟩]⟩,
  ⟨"LNK_CTL", 0x4000010, [(0x10000, 16)], .hub, [⟨"RENEG", 2, 2, .wo, 0⟩, ⟨"DOWN", 1, 1, .rw, 0⟩, ⟨"FLUSH", 0, 0, .wo, 0⟩]⟩,
  ⟨"LNK_SEQ", 0x4000014, [(0x10000, 16)], .hub, [⟨"TXNEXT", 31, 16, .ro, 0⟩, ⟨"TXACKED", 15, 0, .ro, 0⟩]⟩,
  ⟨"LNK_RXSEQ", 0x4000018, [(0x10000, 16)], .hub, [⟨"RXHIGH", 31, 16, .ro, 0⟩, ⟨"RXACK", 15, 0, .ro, 0⟩]⟩,
  ⟨"LNK_CREDIT", 0x400001c, [(0x10000, 16)], .hub, [⟨"RSP", 31, 16, .ro, 0⟩, ⟨"REQ", 15, 0, .ro, 0⟩]⟩,
  ⟨"LNK_POOL", 0x4000020, [(0x10000, 16)], .hub, [⟨"RSP", 31, 16, .ro, 0⟩, ⟨"REQ", 15, 0, .ro, 0⟩]⟩]

/-- Registers of the block at 0x0400_0000, part 2. -/
def regRows4b : List RegRow := [
  ⟨"LNK_ERR0", 0x4000030, [(0x10000, 16)], .hub, [⟨"CRCFAIL", 31, 16, .rc, 0⟩, ⟨"FECFAIL", 15, 0, .rc, 0⟩]⟩,
  ⟨"LNK_ERR1", 0x4000034, [(0x10000, 16)], .hub, [⟨"REPLAY", 31, 16, .rc, 0⟩, ⟨"DUP", 15, 0, .rc, 0⟩]⟩,
  ⟨"LNK_ERR2", 0x4000038, [(0x10000, 16)], .hub, [⟨"RETRAIN", 31, 24, .rc, 0⟩, ⟨"DOWNS", 23, 16, .rc, 0⟩, ⟨"PROTO", 15, 0, .rc, 0⟩]⟩,
  ⟨"LNK_INJ", 0x400003c, [(0x10000, 16)], .hub, [⟨"EN", 31, 31, .rw, 0⟩, ⟨"SEQ", 15, 0, .rw, 0⟩]⟩,
  ⟨"LNK_SESSION", 0x4000040, [(0x10000, 16)], .hub, [⟨"SESSION", 31, 0, .ro, 0⟩]⟩,
  ⟨"LNK_PSESSION", 0x4000044, [(0x10000, 16)], .hub, [⟨"SESSION", 31, 0, .ro, 0⟩]⟩]

def regRows4 : List RegRow := regRows4a ++ regRows4b

/-- Registers of the block at 0x0500_0000. -/
def regRows5 : List RegRow := [
  ⟨"FLT_E0", 0x5000100, [(0x20, 16)], .hub, [⟨"BEAT_LO", 31, 0, .ro, 0⟩]⟩,
  ⟨"FLT_E1", 0x5000104, [(0x20, 16)], .hub, [⟨"BEAT_HI", 31, 0, .ro, 0⟩]⟩,
  ⟨"FLT_E2", 0x5000108, [(0x20, 16)], .hub, [⟨"VALID", 31, 31, .ro, 0⟩, ⟨"BAD", 30, 30, .ro, 0⟩, ⟨"CLASS", 29, 28, .ro, 0⟩, ⟨"SUBTYPE", 27, 24, .ro, 0⟩, ⟨"SOURCE", 23, 19, .ro, 0⟩, ⟨"INSTANCE", 15, 0, .ro, 0⟩]⟩,
  ⟨"FLT_E3", 0x500010c, [(0x20, 16)], .hub, [⟨"EVENT", 31, 24, .ro, 0⟩, ⟨"DETAIL", 23, 0, .ro, 0⟩]⟩,
  ⟨"FLT_E4", 0x5000110, [(0x20, 16)], .hub, [⟨"SEQ", 31, 0, .ro, 0⟩]⟩,
  ⟨"FLT_STATUS0", 0x5000000, [], .hub, [⟨"CORR", 31, 0, .w1c, 0⟩]⟩,
  ⟨"FLT_STATUS1", 0x5000004, [], .hub, [⟨"UC", 31, 0, .w1c, 0⟩]⟩,
  ⟨"FLT_STATUS2", 0x5000008, [], .stby, [⟨"FATAL", 31, 0, .ro, 0⟩]⟩,
  ⟨"FLT_STATUS3", 0x500000c, [], .stby, [⟨"FATAL", 31, 31, .ro, 0⟩, ⟨"THERM", 30, 30, .ro, 0⟩, ⟨"ESC", 29, 29, .ro, 0⟩, ⟨"PAUSED", 28, 28, .ro, 0⟩, ⟨"FSRC", 20, 16, .ro, 0⟩, ⟨"FCODE", 15, 8, .ro, 0⟩]⟩,
  ⟨"FLT_ACK", 0x5000010, [], .hub, [⟨"ACK", 31, 0, .wo, 0⟩]⟩,
  ⟨"FLT_TSTAT", 0x5000014, [], .hub, [⟨"RUN", 31, 0, .ro, 0⟩]⟩,
  ⟨"FLT_CFG", 0x5000018, [], .hub, [⟨"FE_CORR", 31, 31, .rw, 0⟩, ⟨"TIMER", 9, 0, .rw, 50⟩]⟩,
  ⟨"FLT_ERRN", 0x500001c, [], .hub, [⟨"HOLD", 31, 31, .rw, 0⟩, ⟨"LEVEL", 30, 30, .ro, 0⟩, ⟨"CMASK", 1, 0, .rw, 2⟩]⟩,
  ⟨"FLT_HQSTAT", 0x5000020, [], .hub, [⟨"LOST", 31, 20, .rc, 0⟩, ⟨"NEXT", 3, 0, .ro, 0⟩]⟩,
  ⟨"FLT_HQREAD", 0x5000024, [], .hub, [⟨"SEQ", 31, 0, .rw, 0⟩]⟩,
  ⟨"FLT_FE0", 0x5000040, [], .hub, [⟨"ADDR_LO", 31, 0, .ro, 0⟩]⟩,
  ⟨"FLT_FE1", 0x5000044, [], .hub, [⟨"VALID", 31, 31, .w1c, 0⟩, ⟨"SPACE", 30, 28, .ro, 0⟩, ⟨"MASTER", 27, 24, .ro, 15⟩, ⟨"ACCESS", 23, 21, .ro, 0⟩, ⟨"ADDR_HI", 15, 0, .ro, 0⟩]⟩,
  ⟨"FLT_FE2", 0x5000048, [], .hub, [⟨"BEAT_LO", 31, 0, .ro, 0⟩]⟩,
  ⟨"FLT_FE3", 0x500004c, [], .hub, [⟨"BEAT_HI", 31, 0, .ro, 0⟩]⟩,
  ⟨"FLT_FE4", 0x5000050, [], .hub, [⟨"EVENT_ID", 29, 0, .ro, 0⟩]⟩,
  ⟨"FLT_FE5", 0x5000054, [], .hub, [⟨"SYNDROME", 31, 0, .ro, 0⟩]⟩,
  ⟨"FLT_INJ", 0x5000080, [(0x4, 10)], .hub, [⟨"ARM", 31, 31, .rw, 0⟩, ⟨"INSTANCE", 23, 16, .rw, 0⟩, ⟨"MASK", 7, 0, .rw, 0⟩]⟩,
  ⟨"FLT_IINJ", 0x50000c0, [], .hub, [⟨"ARM", 31, 31, .rw, 0⟩, ⟨"SRC", 30, 24, .rw, 0⟩, ⟨"DST", 23, 20, .rw, 0⟩, ⟨"SEQ", 15, 0, .rw, 0⟩]⟩,
  ⟨"RESERVED_HIST", 0x5000114, [(0x20, 16), (0x4, 3)], .hub, []⟩]

/-- Registers of the block at 0x0600_0000. -/
def regRows6 : List RegRow := [
  ⟨"TP_CFG", 0x6000000, [], .stby, [⟨"PWR_LIMIT", 28, 16, .rw, 6000⟩, ⟨"TARGET", 6, 0, .rw, 0⟩]⟩,
  ⟨"TP_INPUT", 0x6000004, [], .stby, [⟨"POWER", 31, 16, .ro, 0⟩, ⟨"VOLT", 15, 0, .ro, 0⟩]⟩,
  ⟨"TP_PEAK", 0x6000008, [], .stby, [⟨"PEAK", 31, 16, .rc, 0⟩, ⟨"GOVSTEP", 15, 0, .rc, 0⟩]⟩,
  ⟨"TP_TDCTL", 0x600000c, [], .stby, [⟨"RETIRE", 31, 31, .wo, 0⟩, ⟨"RESTORE", 30, 30, .wo, 0⟩, ⟨"ERR", 27, 24, .ro, 0⟩, ⟨"DIE", 3, 0, .rw, 0⟩]⟩,
  ⟨"TP_SENSCTL", 0x6000010, [], .stby, [⟨"RECHECK", 31, 31, .wo, 0⟩, ⟨"SENSOR", 8, 0, .rw, 0⟩]⟩,
  ⟨"TP_BROKEN", 0x6000040, [(0x4, 9)], .stby, [⟨"BROKEN", 31, 0, .ro, 0⟩]⟩,
  ⟨"TP_DOM", 0x6000100, [(0x4, 20)], .stby, [⟨"TEMP", 31, 24, .ro, 0⟩, ⟨"TLEVEL", 20, 16, .ro, 16⟩, ⟨"PLEVEL", 12, 8, .ro, 16⟩, ⟨"THROT", 7, 7, .ro, 0⟩, ⟨"STATE", 2, 0, .ro, 0⟩]⟩,
  ⟨"TP_TDV", 0x6000180, [(0x4, 12)], .stby, [⟨"ILIM_MAX", 24, 16, .rw, 460⟩, ⟨"VSET", 4, 0, .rw, 10⟩]⟩,
  ⟨"TP_SENS", 0x6000400, [(0x4, 264)], .stby, [⟨"BROKEN", 31, 31, .ro, 0⟩, ⟨"CAUSE", 30, 28, .ro, 0⟩, ⟨"READING", 15, 0, .ro, 32768⟩]⟩]

/-- Registers of the block at 0x0700_0000, part 1. -/
def regRows7a : List RegRow := [
  ⟨"DBG_CHPRIV", 0x7000000, [], .hub, [⟨"CTXCH", 3, 1, .rw, 0⟩]⟩,
  ⟨"DBG_CHCTX", 0x7000010, [(0x8, 4), (0x4, 2)], .hub, [⟨"MASK", 31, 0, .rw, 0⟩]⟩,
  ⟨"DBG_WD", 0x7000040, [], .hub, [⟨"LIMIT", 15, 0, .rw, 1024⟩]⟩,
  ⟨"DBG_DUMPCTL", 0x7000048, [], .hub, [⟨"GO", 31, 31, .wo, 0⟩, ⟨"ARMED", 30, 30, .ro, 0⟩, ⟨"ARM", 29, 29, .wo, 0⟩, ⟨"BUSY", 28, 28, .ro, 0⟩, ⟨"AUTO", 27, 27, .rw, 1⟩, ⟨"ERR", 26, 24, .ro, 0⟩]⟩,
  ⟨"DBG_DUMPBASE0", 0x700004c, [], .hub, [⟨"PA_LO", 31, 21, .rw, 0⟩]⟩,
  ⟨"DBG_DUMPBASE1", 0x7000050, [], .hub, [⟨"PA_HI", 15, 0, .rw, 0⟩]⟩,
  ⟨"DBG_EXPSTAT", 0x7000054, [], .hub, [⟨"EXPDROP", 31, 16, .rc, 0⟩, ⟨"LINES", 15, 0, .rc, 0⟩]⟩,
  ⟨"DBG_REELCTL", 0x7010000, [(0x1000, 12)], .td, [⟨"EN", 31, 31, .rw, 0⟩, ⟨"EXPORT", 30, 30, .rw, 0⟩, ⟨"MODE", 29, 28, .rw, 0⟩, ⟨"STOPPED", 27, 27, .ro, 0⟩, ⟨"TRIGGERED", 26, 26, .ro, 0⟩, ⟨"POST", 15, 0, .rw, 0⟩]⟩,
  ⟨"DBG_REELPTR", 0x7010004, [(0x1000, 12)], .td, [⟨"WRAPPED", 31, 31, .ro, 0⟩, ⟨"NEXT", 15, 0, .ro, 0⟩]⟩,
  ⟨"DBG_REELDROP", 0x7010008, [(0x1000, 12)], .td, [⟨"DROPS", 31, 0, .rc, 0⟩]⟩,
  ⟨"DBG_SAMPLE", 0x7010040, [(0x1000, 12)], .td, [⟨"GO", 0, 0, .wo, 0⟩]⟩,
  ⟨"DBG_TRIGCFG0", 0x7010010, [(0x1000, 12)], .td, [⟨"OPERATOR", 31, 16, .rw, 0⟩, ⟨"LAYER", 15, 0, .rw, 0⟩]⟩,
  ⟨"DBG_TRIGCFG1", 0x7010014, [(0x1000, 12)], .td, [⟨"FORCE", 31, 31, .wo, 0⟩, ⟨"M_OP", 30, 30, .rw, 0⟩, ⟨"M_LAYER", 29, 29, .rw, 0⟩, ⟨"M_CTX", 28, 28, .rw, 0⟩, ⟨"CONTEXT", 27, 22, .rw, 0⟩, ⟨"CALLERS", 21, 18, .rw, 15⟩, ⟨"KINDS", 4, 1, .rw, 0⟩]⟩,
  ⟨"DBG_TRIGCAP0", 0x7010020, [(0x1000, 12)], .td, [⟨"BEAT_LO", 31, 0, .ro, 0⟩]⟩,
  ⟨"DBG_TRIGCAP1", 0x7010024, [(0x1000, 12)], .td, [⟨"BEAT_HI", 31, 0, .ro, 0⟩]⟩,
  ⟨"DBG_TRIGCAP2", 0x7010028, [(0x1000, 12)], .td, [⟨"VALID", 31, 31, .w1c, 0⟩, ⟨"WRITTEN", 30, 30, .ro, 0⟩, ⟨"KIND", 27, 24, .ro, 0⟩, ⟨"CALLER", 23, 22, .ro, 0⟩, ⟨"CONTEXT", 21, 16, .ro, 0⟩, ⟨"INDEX", 15, 0, .ro, 0⟩]⟩,
  ⟨"DBG_TRIGCAP3", 0x701002c, [(0x1000, 12)], .td, [⟨"OPERATOR", 31, 16, .ro, 0⟩, ⟨"LAYER", 15, 0, .ro, 0⟩]⟩,
  ⟨"DBG_TRIGCAP4", 0x7010030, [(0x1000, 12)], .td, [⟨"OPCLASS", 31, 24, .ro, 0⟩, ⟨"PC", 23, 0, .ro, 0⟩]⟩,
  ⟨"DBG_SET_TAG", 0x7010200, [(0x1000, 12), (0x80, 4), (0x20, 3)], .td, [⟨"OPERATOR", 31, 16, .ro, 0⟩, ⟨"LAYER", 15, 0, .ro, 0⟩]⟩,
  ⟨"DBG_SET_INFO", 0x7010204, [(0x1000, 12), (0x80, 4), (0x20, 3)], .td, [⟨"VALID", 31, 31, .ro, 0⟩, ⟨"PART", 30, 30, .ro, 0⟩, ⟨"CONTEXT", 29, 24, .ro, 0⟩, ⟨"PC", 23, 0, .ro, 0⟩]⟩,
  ⟨"DBG_SET_MU_BUSY", 0x7010208, [(0x1000, 12), (0x80, 4), (0x20, 3)], .td, [⟨"COUNT", 31, 0, .ro, 0⟩]⟩,
  ⟨"DBG_SET_VU_BUSY", 0x701020c, [(0x1000, 12), (0x80, 4), (0x20, 3)], .td, [⟨"COUNT", 31, 0, .ro, 0⟩]⟩,
  ⟨"DBG_SET_STREAM", 0x7010210, [(0x1000, 12), (0x80, 4), (0x20, 3)], .td, [⟨"COUNT", 31, 0, .ro, 0⟩]⟩,
  ⟨"DBG_SET_REPLAY", 0x7010214, [(0x1000, 12), (0x80, 4), (0x20, 3)], .td, [⟨"COUNT", 31, 0, .ro, 0⟩]⟩]

/-- Registers of the block at 0x0700_0000, part 2. -/
def regRows7b : List RegRow := [
  ⟨"DBG_SET_CORR", 0x7010218, [(0x1000, 12), (0x80, 4), (0x20, 3)], .td, [⟨"COUNT", 31, 0, .ro, 0⟩]⟩,
  ⟨"DBG_SET_BEAT", 0x701021c, [(0x1000, 12), (0x80, 4), (0x20, 3)], .td, [⟨"BEAT", 31, 0, .ro, 0⟩]⟩,
  ⟨"DBG_DCNT", 0x7010100, [(0x1000, 12), (0x8, 6), (0x4, 2)], .td, [⟨"COUNT", 31, 0, .ro, 0⟩]⟩,
  ⟨"DBG_DSMP", 0x7010180, [(0x1000, 12), (0x8, 6), (0x4, 2)], .td, [⟨"COUNT", 31, 0, .ro, 0⟩]⟩,
  ⟨"DBG_DSMPBEAT", 0x70101b0, [(0x1000, 12), (0x4, 2)], .td, [⟨"BEAT", 31, 0, .ro, 0⟩]⟩,
  ⟨"DBG_CTXCNT", 0x7080000, [(0x400, 64), (0x40, 12), (0x8, 6), (0x4, 2)], .hub, [⟨"COUNT", 31, 0, .ro, 0⟩]⟩,
  ⟨"RESERVED_CTXCNT", 0x7080030, [(0x400, 64), (0x40, 12), (0x4, 4)], .hub, []⟩]

def regRows7 : List RegRow := regRows7a ++ regRows7b

/-- Registers of the block at 0x0800_0000. -/
def regRows8 : List RegRow := [
  ⟨"HLK_STATE", 0x8000000, [], .hub, [⟨"CAUSE", 19, 16, .ro, 0⟩, ⟨"LANES", 11, 8, .ro, 0⟩, ⟨"RATE", 5, 5, .ro, 0⟩, ⟨"TXIDLE", 4, 4, .ro, 0⟩, ⟨"RXIDLE", 3, 3, .ro, 0⟩, ⟨"STATE", 2, 0, .ro, 0⟩]⟩,
  ⟨"HLK_CFG", 0x8000004, [], .stby, [⟨"IDLE_DLY", 15, 8, .rw, 10⟩, ⟨"X15_HOST", 7, 7, .rw, 0⟩, ⟨"RATE_MAX", 6, 6, .rw, 1⟩, ⟨"LANES_MAX", 5, 4, .rw, 3⟩]⟩,
  ⟨"HLK_CTL", 0x8000008, [], .hub, [⟨"RESET", 1, 1, .wo, 0⟩, ⟨"RETRAIN", 0, 0, .wo, 0⟩]⟩,
  ⟨"HLK_SESSION", 0x800000c, [], .hub, [⟨"SESSION", 31, 0, .ro, 0⟩]⟩,
  ⟨"HLK_LANE", 0x8000010, [(0x4, 8)], .hub, [⟨"EFM", 31, 24, .ro, 0⟩, ⟨"MAIN", 16, 11, .ro, 0⟩, ⟨"POST", 10, 6, .ro, 0⟩, ⟨"PRE", 5, 2, .ro, 0⟩, ⟨"ACTIVE", 0, 0, .ro, 0⟩]⟩,
  ⟨"HLK_ERR0", 0x8000030, [], .hub, [⟨"CRCFAIL", 31, 16, .rc, 0⟩, ⟨"PREFIX", 15, 0, .rc, 0⟩]⟩,
  ⟨"HLK_ERR1", 0x8000034, [], .hub, [⟨"REPLAY", 31, 16, .rc, 0⟩, ⟨"RETRAIN", 15, 8, .rc, 0⟩, ⟨"DOWNS", 7, 0, .rc, 0⟩]⟩,
  ⟨"HLK_RETQ", 0x8000038, [], .hub, [⟨"DROP", 31, 16, .rc, 0⟩, ⟨"DEPTH", 12, 0, .ro, 0⟩]⟩,
  ⟨"HLK_INJ", 0x800003c, [], .hub, [⟨"EN", 31, 31, .rw, 0⟩, ⟨"SEQ", 15, 0, .rw, 0⟩]⟩,
  ⟨"HLK_ACCEPT", 0x8000040, [(0x4, 4)], .hub, [⟨"COUNT", 31, 0, .ro, 0⟩]⟩]

/-- Registers of the block at 0x0900_0000. -/
def regRows9 : List RegRow := [
  ⟨"GFW_STATE", 0x9000000, [], .hub, [⟨"AFAIL", 11, 8, .ro, 0⟩, ⟨"STATE", 2, 0, .ro, 1⟩]⟩,
  ⟨"GFW_CTL", 0x9000004, [], .hub, [⟨"CLOSE", 2, 2, .wo, 0⟩, ⟨"OPEN", 1, 1, .wo, 0⟩, ⟨"RESET", 0, 0, .rw, 1⟩]⟩,
  ⟨"GFW_MEAS", 0x9000010, [(0x4, 12)], .hub, [⟨"MEAS", 31, 0, .ro, 0⟩]⟩,
  ⟨"GFW_WIN.0", 0x9000100, [(0x8, 8)], .hub, [⟨"EN", 31, 31, .rw, 0⟩, ⟨"WR", 30, 30, .rw, 0⟩, ⟨"RD", 29, 29, .rw, 0⟩, ⟨"BASE", 26, 0, .rw, 0⟩]⟩,
  ⟨"GFW_WIN.1", 0x9000104, [(0x8, 8)], .hub, [⟨"LIMIT", 26, 0, .rw, 0⟩]⟩,
  ⟨"GFW_SYNCALLOW", 0x9000200, [(0x4, 128)], .hub, [⟨"ALLOW", 31, 0, .rw, 0⟩]⟩,
  ⟨"GFW_SHARE", 0x9000400, [], .hub, [⟨"TAGS", 15, 8, .rw, 64⟩, ⟨"SLOTS", 2, 0, .rw, 1⟩]⟩,
  ⟨"GFW_ERR", 0x9000404, [], .hub, [⟨"VALID", 31, 31, .w1c, 0⟩, ⟨"KIND", 29, 27, .ro, 0⟩, ⟨"UNIT", 26, 0, .ro, 0⟩]⟩]

/-- The rows of one 16 MiB block of R9. -/
def regBlock : Nat → List RegRow
  | 0 => regRows0 | 1 => regRows1 | 2 => regRows2 | 3 => regRows3 | 4 => regRows4 | 5 => regRows5 | 6 => regRows6
  | 7 => regRows7 | 8 => regRows8 | 9 => regRows9 | _ => []

/-- Whether an offset names an instance of an array with these strides and counts. -/
def inDims : List (Nat × Nat) → Nat → Bool
  | [], off => off = 0
  | (st, n) :: ds, off => off / st < n && inDims ds (off % st)

def RegRow.has (r : RegRow) (a : Nat) : Bool := r.base ≤ a && inDims r.dims (a - r.base)

/-- The register at an address, if a rule defines one there (R552). -/
def regAt (a : Nat) : Option RegRow := (regBlock (a / 0x1000000)).find? (·.has a)

/-- Bits `hi` down to `lo` set. -/
def fieldMask (hi lo : Nat) : Word := BitVec.ofNat 32 ((2 ^ (hi - lo + 1) - 1) * 2 ^ lo)

/-- The bits of a register that one access kind covers. -/
def RegRow.mask (r : RegRow) (a : Access) : Word :=
  r.fields.foldl (fun m f => if f.acc = a then m ||| fieldMask f.hi f.lo else m) 0

/-- The reset value of a row's fields. -/
def RegRow.resetVal (r : RegRow) : Word :=
  r.fields.foldl (fun m f => m ||| BitVec.ofNat 32 (f.reset * 2 ^ f.lo)) 0

/-- What a register that nothing has written reads as: its reset value; TD_ID also holds its die's number (R103). -/
def regDefault (a : Nat) : Word :=
  match regAt a with
  | none => 0
  | some r => if r.name = "TD_ID" then r.resetVal ||| BitVec.ofNat 32 ((a - 0x1000000) / 0x100000) else r.resetVal

/-- Bits `hi` down to `lo` of a register's value, as a number. -/
def getF (w : Word) (hi lo : Nat) : Nat := (w.toNat / 2 ^ lo) % 2 ^ (hi - lo + 1)

/-- A register's value with bits `hi` down to `lo` replaced. -/
def setF (w : Word) (hi lo v : Nat) : Word :=
  (w &&& ~~~(fieldMask hi lo)) ||| (BitVec.ofNat 32 (v % 2 ^ (hi - lo + 1) * 2 ^ lo))

end Sys2Proof.Machine
end

