-- ==== Sys2Proof/Machine/State.lean ====
section
/-! DEFINITION. The machine's state as plain data: every register of the management space (by address, in `regs`), every
memory, buffer, queue, table, counter, mode and pin that the spec gives the module, and the queue of waiting commands. -/
namespace Sys2Proof.Machine

/-! ### Callers and figures (R113, R114, R129, R133, R147, R150) -/

/-- The slip counters of a context on a Caller (R129, R159). -/
structure Slip where
  last : Nat := 0
  max : Nat := 0
  sum : Nat := 0
  wait : Nat := 0
  ack : Nat := 0
  floor : Nat := 0
  fetch : Nat := 0
deriving DecidableEq, Repr

/-- The in-flight transfer record of R150: the descriptor and the first segment not completed. -/
structure XferRec where
  desc : List Byte
  seg : Nat
deriving DecidableEq, Repr

/-- The words of HUB_XLF that travel with a Caller record (R203). -/
structure XlfRec where
  w0 : Word
  w1 : Word
  w2 : Word
  w3 : Word
deriving DecidableEq, Repr

/-- A Caller's state for one context (R113), with what the step in progress has reached. -/
structure CallerCtx where
  pc : BitVec 24 := 0
  anchor : BitVec 64 := 0
  slip : Slip := {}
  /-- the wait-registration flag -/
  waitReg : Bool := false
  xfer : Option XferRec := none
  /-- the figure at `pc` has launched before and relaunches without a new floor (R150) -/
  relaunch : Bool := false
  /-- the Caller holds at its figure (R151), for this FIGERR code, 0 for the errors that have none -/
  held : Bool := false
  figerr : Fin 16 := 0
  xlf : Option XlfRec := none
  /-- the Caller holds, with this FIGERR code, at the first figure it has not launched (R139, R143, R220, R349) -/
  pend : Option (Fin 16) := none
  /-- has launched HALT in the step in progress (R146) -/
  halted : Bool := false
  /-- TD_CTXTAB as the step in progress uses it (R158) -/
  table : Word := 0
  /-- sequence of CMP figures in the step (R382) -/
  cmpSeq : BitVec 16 := 0
deriving DecidableEq, Repr

/-- States of TD_CALLSTATE.STATE (R159). -/
inductive CallSt where
  | idle | fetch | floor | running | wait | halted | held | switching
deriving DecidableEq, Repr

/-- What a launched figure has still to do before FIGURE_ACK. -/
inductive Work where
  /-- nothing: its effect is complete -/
  | done
  /-- waits for the Result of its anchor cell (R54, R81) -/
  | result
  /-- accumulates; `left` dies' wide partials are outstanding (R121) -/
  | accum (left : Nat)
  /-- its transfers (R189): next segment to issue, and the failure of lowest index -/
  | xfer (next : Nat) (failed : Option (Nat × Fin 16)) (stopped : Bool)
  /-- its flits (R125): the payload flits read from SRAM so far -/
  | send (next : Nat)
  /-- a SKIP_IF that waits for its VALUE (R131) -/
  | value
deriving DecidableEq, Repr

/-- What a launch changes in its Caller's state: a figure that waits for a Result has not launched for a context switch (R54). -/
structure PreLaunch where
  anchor : BitVec 64 := 0
  slip : Slip := {}
  cmpSeq : BitVec 16 := 0
  relaunch : Bool := false
deriving DecidableEq, Repr

/-- A launched figure: its 32 bytes, its descriptor, its context's window and entropy draw, and its progress. -/
structure Running where
  fig : List Byte
  desc : List Byte := []
  ctx : CtxId
  win : Word
  launch : BitVec 64
  entropy : BitVec 64 := 0
  step : BitVec 64 := 0
  /-- the global anchor, once known: NONE or a value (R46) -/
  anchor : Option (Option Int) := none
  accs : List Acc := []
  /-- FP32 partials of a RELAXED reduction, with the overflows met (R61) -/
  fps : List Fv := []
  /-- conditions gathered for TD_NUMSTAT (R67) -/
  fl : NumFlags := 0
  work : Work
  /-- mover tag of a SEND (R90), and the mover that carries it (R191) -/
  sendTag : Option (Fin 256) := none
  mover : Option (Fin 8) := none
  /-- FP32 partials received so far, by entry (R61) -/
  got : List (BitVec 12 × Nat) := []
  /-- CMP sequence of a figure with CMP set (R382), and its hash once formed (R381) -/
  cmp : BitVec 16 := 0
  hash : Option (BitVec 64) := none
  pc : BitVec 24 := 0
  /-- PC after the figure: the next figure, or a SKIP_IF's target -/
  newPc : BitVec 24 := 0
  /-- a plan switch has changed the entry that the figure uses (R220) -/
  entryGone : Bool := false
  /-- the Caller's state for the context as it was before the launch (R54) -/
  pre : PreLaunch := {}
deriving DecidableEq, Repr

/-- A Caller: what it runs now, its prefetched figures, its run queue and its launch conditions (R112, R114, R127). -/
structure Caller where
  ctx : Option CtxId := none
  st : CallSt := .idle
  queue : List CtxId := []
  /-- fetched figures, by figure index -/
  fetched : List (BitVec 24 × List Byte) := []
  /-- RELEASE received for the wait of the figure at PC -/
  rel : Bool := false
  /-- PREEMPT, SAVE or UNLOAD asks for the next boundary -/
  stop : Bool := false
  /-- the beats at which the launch conditions of R127 were last met -/
  ackBeat : BitVec 64 := 0
  fetchBeat : BitVec 64 := 0
  relBeat : BitVec 64 := 0
  /-- its value towards the heat class (R133) -/
  heat : Fin 8 := 0
  run : Option Running := none
deriving DecidableEq, Repr

/-! ### Sync objects and anchor cells (R51, R138) -/

/-- An entry of the waiter table (R138): slot 0-47 Caller 4n+k, 48-63 the guest. -/
structure Waiter where
  slot : Fin 64
  obj : ObjId
  thr : BitVec 20
  ctx : CtxId
deriving DecidableEq, Repr

/-- States of an anchor cell (R52). -/
inductive CellSt where
  | free | collecting | done
deriving DecidableEq, Repr

/-- Where an anchor-cell message came from: a Caller of this module, or a module over an external port (R56). -/
inductive Sender where
  | local (c : CtxId) (d : DieId) (k : CallerId)
  | remote (x : XPort) (m : ModId)
deriving DecidableEq, Repr

/-- An anchor cell (R52), and where each participant's post came from, to which its Result returns. -/
structure Cell where
  st : CellSt := .free
  tag : BitVec 48 := 0
  count : BitVec 8 := 0
  posts : BitVec 255 := 0
  rels : BitVec 255 := 0
  value : BitVec 32 := 0
  who : List (Fin 256 × Sender) := []
deriving DecidableEq, Repr

/-! ### Paging and transfers (R182, R185, R189 to R192) -/

/-- A TLB entry (R182). -/
structure TlbEnt where
  tlb : Fin 44
  ctx : CtxId
  vpn : BitVec 27
  ppn : BitVec 27
  rd : Bool
  wr : Bool
deriving DecidableEq, Repr

/-- A walk in flight (R182); `stale` when an invalidation began after it (R185); `quiet` when its fault raises nothing: a walk
ahead (R183), or one whose figure has stopped since (R201). -/
structure Walk where
  tlb : Fin 44
  ctx : CtxId
  vpn : BitVec 27
  stale : Bool
  quiet : Bool := false
deriving DecidableEq, Repr

/-- A segment issued and not complete (R189, R193). -/
structure Seg where
  die : DieId
  caller : CallerId
  ctx : CtxId
  idx : Nat
  stream : Bool
  scale : Bool
  dir : Fin 3
  va : Nat
  sram : Nat
  len : Nat
  pa : Nat
  /-- mover tag (R90), none for a STREAM -/
  tag : Option (Fin 256)
  /-- the mover that carries it, once one is free (R191) -/
  mover : Option (Fin 8) := none
  /-- the slot-plan entry that admits it, 0 for class 4, and its lines that the ledger has still to grant (R188, R209, R218) -/
  entry : Nat := 0
  lines : Nat := 0
  /-- an invalidation waits for this access (R185, R187) -/
  inval : Bool := false
  /-- the lowest fault code that another module answered (R203, R323) -/
  fail : Option (Fin 16) := none
  pc : BitVec 24
  issued : BitVec 64
deriving DecidableEq, Repr

/-- A read request to a stack that holds a read tag (R192). -/
structure ReadReq where
  requester : Fin 16
  st : StackId
  offset : BitVec 36
  bytes : Nat
  tag : Fin 1024
  issued : BitVec 64
deriving DecidableEq, Repr

/-! ### Contexts (R145 to R157) -/

/-- What a context does once its Callers have reached a boundary (R145, R149). -/
inductive Stop where
  | preempt
  | save (base : BitVec 48) (half : Nat)
  | unload
deriving DecidableEq, Repr

/-- A save in progress (R154): the base of the half written, its generation, the state before SAVE, and whether step 1 has
been made. -/
structure SaveOp where
  half : BitVec 48
  gen : BitVec 64
  prior : Fin 8
  zeroed : Bool
deriving DecidableEq, Repr

/-- A restore in progress (R155): the base of the half accepted, that of the other half, the half size, and the die set of the
image. -/
structure RestoreOp where
  half : BitVec 48
  other : BitVec 48
  size : Nat
  dies : BitVec 12
deriving DecidableEq, Repr

/-- The header fields of a command that its completion repeats (R431). -/
structure CplKey where
  ch : ChanId
  tag : BitVec 16
  nocpl : Bool
  x15 : Bool
deriving DecidableEq, Repr

/-- What the hub holds for a context beyond its registers. -/
structure CtxHub where
  /-- the commands that wait for the Callers' boundaries, oldest first -/
  stops : List (Stop × CplKey) := []
  /-- a fault in flight during the stop makes the context HELD (R201) -/
  heldAfter : Bool := false
  save : Option (SaveOp × CplKey) := none
  restore : Option (RestoreOp × CplKey) := none
  /-- channel of its most recent START_STEP since LOAD or RESTORE, 0 before one (R430, R432) -/
  chan : ChanId := 0
deriving DecidableEq, Repr

/-! ### Ports and the mesh from both sides (R98, R99, R122, R205, R214, R217, R222, R228, R347 to R349) -/

/-- The launch a flit comes from: its die, Caller, context and launch beat. -/
structure Origin where
  die : DieId
  caller : CallerId
  ctx : CtxId
  launch : BitVec 64
deriving DecidableEq, Repr

/-- A flit of the plan (R222): its entry, FIRST mark, payload and payload length; the ports of its die that may carry it
(R125); and the figure that formed it, none for a flit that another module sent. -/
structure PlanFlit where
  entry : BitVec 12
  first : Bool
  payload : List Byte
  plen : Nat := 240
  ports : BitVec 8 := 0xFF
  origin : Option Origin
  /-- the input position whose transmit or receive buffer holds it, none while it waits for a place (R98, R217) -/
  place : Option (Fin 128) := none
deriving DecidableEq, Repr

/-- A flit in a port's replay store (R349): its number, its replays, and the destinations that have acknowledged it. -/
structure Stored where
  seq : BitVec 16
  flit : PlanFlit
  replays : Nat := 0
  /-- its replay is due in the pair's next plan slot -/
  due : Bool := false
  /-- slots since its burst without an IACK -/
  age : Nat := 0
  /-- the limit of R211 has deferred the replay that is due -/
  deferred : Bool := false
  /-- destination dies still to acknowledge it -/
  waitFor : List (Fin 32)
  /-- a plan switch has changed its entry: it takes no further slot (R220) -/
  gone : Bool := false
deriving DecidableEq, Repr

/-- A burst that awaits a destination's IACK (R348): the highest number it sent, if any, and the slots since. -/
structure SentBurst where
  dst : Fin 32
  high : Option (BitVec 16)
  age : Nat := 0
deriving DecidableEq, Repr

/-- The sending side of an internal pair (R347, R349): source mesh position, and destination die or split entry. -/
structure TxPair where
  src : Fin 128
  split : BitVec 12
  dst : Fin 32
  next : BitVec 16 := 0
  store : List Stored := []
  /-- replays sent in the last eight slots, one place per slot (R211) -/
  recent : List Nat := []
  /-- bursts without an IACK, oldest first -/
  bursts : List SentBurst := []
deriving DecidableEq, Repr

/-- The receiving side of an internal pair: the next number to land, the flits held above it, lock failures in a row
(R229), and the entry's landing cursor (R222). -/
structure RxPair where
  src : Fin 128
  split : BitVec 12
  die : DieId
  port : Fin 8
  next : BitVec 16 := 0
  held : List (BitVec 16 × PlanFlit) := []
  lockFails : Nat := 0
deriving DecidableEq, Repr

/-- A flit in a landing buffer (R122): `waiting` for a receiving figure when it is a PARTIAL. -/
structure LandFlit where
  flit : PlanFlit
  seq : BitVec 16
  waiting : Bool
deriving DecidableEq, Repr

/-- What a request moves: nothing that the model follows, a segment of a MOVE or STREAM, the lines of another module's request
from an external port to a stack or back, or the data of a context's load, save or restore (R31, R194, R210). -/
inductive GrantUse where
  | other
  | seg (d : DieId) (k : CallerId) (c : CtxId) (idx : Nat)
  | inbound (x : XPort) (st : StackId) (wr : Bool)
  | ctx (c : CtxId)
deriving DecidableEq, Repr

/-- One grant of the ledger for a slot (R214), with the lines it admits of its request. -/
structure Grant where
  req : LedReq
  slot : BitVec 64
  use : GrantUse := .other
  lines : Nat := 0
deriving DecidableEq, Repr

/-- A request queued at the ledger with the slot it reached it in. -/
structure Queued where
  req : LedReq
  slot : BitVec 64
  use : GrantUse := .other
  /-- lines still to be granted of a request that the ledger serves slot by slot; none for one granted whole -/
  left : Option Nat := none
  /-- slots that it has waited at the head of its queue through contention, and whether that was counted (R240) -/
  waited : Nat := 0
  counted : Bool := false
deriving DecidableEq, Repr

/-- The ledger, plan and mesh behind their registers (R209 to R222, R228). -/
structure Mesh where
  /-- queues of classes 4 and 5, oldest first -/
  queue : List Queued := []
  /-- the requester served last at each contended resource: positions, bonds and stacks, by class (R212) -/
  served : SMap Nat := []
  grants : List Grant := []
  /-- slots of the guest's last grants (R235) -/
  guestSlots : List Nat := []
  /-- the slot in which a pending switch was written (R220) -/
  switchSlot : BitVec 64 := 0
  /-- the element settings of the current slot: (element, code), BAR where unlisted (R223) -/
  settings : SMap Nat := []
  /-- a check of the standby bank is in progress (R219) -/
  checking : Bool := false
  /-- a failed element whose re-routing is in progress, oldest first (R228) -/
  rerouting : List (Fin 832) := []
  /-- connections of the active plan that a failed row has lost: (row, input) -/
  lost : List (Nat × Nat) := []
  /-- spare loops that the rows of the active plan use (R228, R241) -/
  loops : List Nat := []
  /-- self-test light of the present slot: reference positions sent and received on (R272) -/
  test : List (Nat × Nat) := []
  /-- flits formed and not yet departed, by entry, in payload order; those with a place stand in a transmit or receive buffer
  (R98, R217) -/
  tx : SMap (List PlanFlit) := []
  txPairs : List TxPair := []
  rxPairs : List RxPair := []
  landing : SMap (List LandFlit) := []
  /-- landing cursors by die and entry (R222) -/
  cursors : SMap (Option Nat) := []
deriving DecidableEq, Repr

/-! ### Messages in transit (R51, R137, R182, R234) -/

/-- A message between the dies, the controllers, the guest and the hub. -/
inductive Msg where
  | signal (obj : ObjId) (inc : BitVec 8) (c : CtxId) (d : DieId) (k : CallerId)
  | waitreg (obj : ObjId) (thr : BitVec 20) (c : CtxId) (d : DieId) (k : CallerId)
  | waitcancel (obj : ObjId) (d : DieId) (k : CallerId)
  | read (obj : ObjId) (c : CtxId) (d : DieId) (k : CallerId)
  | release (obj : ObjId) (c : CtxId) (d : DieId) (k : CallerId)
  | value (obj : ObjId) (c : CtxId) (d : DieId) (k : CallerId) (x : BitVec 20)
  | refusal (kind : SyncKind) (obj : ObjId) (c : CtxId) (d : DieId) (k : CallerId)
  | post (cell : CellId) (tag : BitVec 48) (index count : BitVec 8) (v : BitVec 32) (c : CtxId) (d : DieId) (k : CallerId)
  | result (cell : CellId) (tag : BitVec 48) (v : BitVec 32) (d : DieId)
  | anchorRelease (cell : CellId) (tag : BitVec 48) (index : BitVec 8) (c : CtxId) (d : DieId) (k : CallerId)
  | walkRequest (tlb : Fin 44) (c : CtxId) (va : BitVec 48)
  | walkReply (tlb : Fin 44) (c : CtxId) (va : BitVec 48) (r : WalkResult)
  /-- heat class of a die to the ring controllers of its eight ports (R133) -/
  | heat (d : DieId) (cls : Fin 8)
  /-- acknowledgement of a receiving port (R348) -/
  | iack (src : Fin 128) (split : BitVec 12) (die : DieId) (ack : BitVec 16) (bitmap : BitVec 32)
  /-- to the guest (R232 to R234): a nonce, RELEASE of a waiter entry, VALUE, read data, and a denial -/
  | guestNonce (nonce : BitVec 384)
  | guestRelease (slot : Fin 16)
  | guestValue (obj : ObjId) (x : BitVec 20)
  | guestData (data : List Byte)
  | guestWriteAck
  | guestDenied
deriving DecidableEq, Repr

/-- A flit on its way through the mesh (R347): a burst's flit with its source position and destination. -/
structure MeshFlit where
  src : Fin 128
  dst : Fin 32
  split : BitVec 12
  seq : BitVec 16
  flit : PlanFlit
  /-- sent with its CRC inverted (R490) -/
  bad : Bool := false
deriving DecidableEq, Repr

/-! ### Base-die links (R207, R208, R210 to R213) -/

/-- What waits for a place of a base-die link: a message of class 1 or 3, or a flit of class 5 data. -/
structure LinkItem where
  cls : Nat
  msg : Option Msg := none
deriving DecidableEq, Repr

/-- A flit place of the present slot: the class that takes it, and its messages, at most 15. -/
structure LinkFlit where
  cls : Nat
  msgs : List Msg := []
deriving DecidableEq, Repr

/-- The base-die links: 2k upward from PBk, 2k + 1 downward to it. -/
structure BaseLinks where
  /-- what waits for a place, oldest first -/
  waiting : SMap (List LinkItem) := []
  /-- the flit places that the present slot gives, in time order -/
  places : SMap (List LinkFlit) := []
  /-- places that class 6 has still to take on an upward link: all 20 until a slot has been placed -/
  free6 : SMap Nat := []
deriving DecidableEq, Repr

/-- A START_STEP held while SYNCING (R377). -/
structure HeldStart where
  h : HostHdr
  c : CtxId
  downbeat : BitVec 64
  data : List Byte
deriving DecidableEq, Repr

/-- The lead's copy of its state to a rejoining partner (R377): rounds made, units written since they were copied (by the
address of a 64 KiB unit of SRAM or a 2 MiB page of a stack), and the contexts that have passed step 4. -/
structure CopyOp where
  round : Nat := 0
  dirty : List Nat := []
  /-- step 4 has begun, and the contexts whose next step the lead holds -/
  stepping : Bool := false
  hold : List CtxId := []
  done : List CtxId := []
deriving DecidableEq, Repr

/-! ### Debug (R529 to R540) -/

/-- A die's reel (R529 to R532): buffered records with their ring indices, records dropped since the last one written and
the beat of the first, the upper beat bits of the previous record, records since enabling, and the post count. -/
structure Reel where
  buf : List (Nat × List Byte) := []
  dropped : Nat := 0
  dropBeat : BitVec 64 := 0
  hi : Option (BitVec 16) := none
  total : Nat := 0
  post : Option Nat := none
deriving DecidableEq, Repr

/-- A line of a reel on its way to the host (R534). -/
structure ExportLine where
  die : DieId
  idx : Nat
  data : List Byte
deriving DecidableEq, Repr

/-- A dump in progress (R537): its cause, the Caller it names, and the beat of its first capture. -/
structure DumpOp where
  base : BitVec 48
  cause : Fin 4
  die : DieId
  caller : CallerId
  first : BitVec 64
  image : List Byte
deriving DecidableEq, Repr

/-- Debug state behind the registers. -/
structure Debug where
  reels : SMap Reel := []
  /-- beats without progress by Caller, and the Callers whose watchdog has expired (R535) -/
  idleBeats : SMap Nat := []
  expired : List Nat := []
  exportBuf : List ExportLine := []
  /-- lines dropped by die since its last TRACE message -/
  exportDrop : SMap Nat := []
  dump : Option DumpOp := none
deriving DecidableEq, Repr

/-! ### Messages to the host (R426, R431, R432) -/

/-- STATUS values of a completion (R431). -/
inductive Status where
  | ok | access | address | state | saveErr | imageErr | fenced | format | poison | stackDown | hostSelect
deriving DecidableEq, Repr

/-- A module-to-host message (R431). `chan` is its channel; `x15` the path it takes (R434). -/
inductive HostMsg where
  /-- CPL: the key of the command, its KIND, STATUS, ARG[47:0] and data -/
  | cpl (key : CplKey) (kind : Byte) (c : CtxId) (st : Status) (arg : BitVec 48) (data : List Byte)
  /-- TOKEN: step counter, result record, tensor ID, row, die, Caller, layer, operator -/
  | token (chan : ChanId) (c : CtxId) (step : BitVec 64) (rec : List Byte) (tensor row : Word) (d : DieId) (k : CallerId)
      (layer operator : BitVec 16)
  | stepDone (chan : ChanId) (c : CtxId) (step beat : BitVec 64)
  /-- NOTIFY: source, the context it concerns if any, ARG[63:8], data -/
  | notify (chan : ChanId) (source : Byte) (c : Option CtxId) (arg : BitVec 56) (data : List Byte)
  /-- TRACE (R534): die, lines dropped, ring index of the first record, data -/
  | trace (d : DieId) (dropped idx : Nat) (data : List Byte)
deriving DecidableEq, Repr

/-- A message as queued or sent: with its FLAGS bits SHADOW and PRIOR (R426, R433). -/
structure Sent where
  msg : HostMsg
  shadow : Bool := false
  prior : Bool := false
deriving DecidableEq, Repr

/-! ### External links (R312 to R349, R356 to R364) -/

/-- A message of R323: its kind, the module number of the requester, TAG, ADDR, LEN, STATUS, bytes 13 and 14, data. -/
structure XMsg where
  kind : Byte
  m : ModId
  tag : BitVec 16
  addr : BitVec 48 := 0
  len : Nat := 0
  status : BitVec 8 := 0
  inc : BitVec 8 := 0
  ctx : BitVec 8 := 0
  data : List Byte := []
deriving DecidableEq, Repr

/-- A request sent to another module that awaits its answer (R194, R143, R343). -/
inductive RemoteWhat where
  /-- `len` bytes from offset `off` of a segment -/
  | segment (d : DieId) (k : CallerId) (c : CtxId) (idx off len : Nat)
  | signal (d : DieId) (k : CallerId) (c : CtxId)
  /-- a post or release of a Caller's figure at a cell of another module -/
  | anchor (d : DieId) (k : CallerId) (c : CtxId)
  /-- a host memory command of this KIND (R174) -/
  | host (key : CplKey) (kind : Byte)
  /-- a copy write to the partner (R377) -/
  | copy
deriving DecidableEq, Repr

structure Remote where
  x : XPort
  tag : BitVec 16
  what : RemoteWhat
deriving DecidableEq, Repr

/-- A sequenced flit in a replay buffer (R328): number, TYPE, VC or channel, FIRST, entry, PLEN, payload, replays so far,
whether a replay is due, and the figure of a PLAN flit. -/
structure XTx where
  seq : BitVec 16
  typ : Fin 4
  vc : Fin 4
  first : Bool
  entry : BitVec 12
  plen : Nat
  payload : List Byte
  replays : Nat := 0
  due : Bool := false
  origin : Option Origin := none
  /-- messages to the host whose last byte it carries -/
  msgs : List Sent := []
deriving DecidableEq, Repr

/-- A VC of an external link or a channel of the Pofold link (R333, R334): flits sent, the partner's counter, own counter of
places returned; what is left of the message whose flits are being sent; payloads received and not yet whole messages. -/
structure Chan where
  sent : BitVec 32 := 0
  credit : BitVec 32 := 0
  free : BitVec 32 := 0
  rest : List Byte := []
  /-- the message to the host that `rest` is of -/
  cur : Option Sent := none
  chunks : List (List Byte) := []
deriving DecidableEq, Repr

/-- A lane that enters or leaves a transmit map: with this end's usable set, or as the partner's LANE_REQ asks (R337). -/
structure LaneChange where
  lane : Fin 18
  enter : Bool
  own : Bool
deriving DecidableEq, Repr

/-- A change of a transmit map announced (R337): map, generation, S, whether ACCEPT has arrived, and the lane it is for. -/
structure MapChange where
  map : BitVec 18
  gen : Bool
  s : BitVec 16
  accepted : Bool
  why : Option LaneChange := none
deriving DecidableEq, Repr

/-- A timestamp exchange in progress (R360): number and t1. -/
structure Probe where
  num : Word
  t1 : BitVec 64
deriving DecidableEq, Repr

/-- The symbols that a receive lane has taken (R254, R413): how many, the numbers of those in error within the window that its
figure looks at, and the count at times in ns of the last 100 ms, oldest first. -/
structure SymbolCount where
  total : Nat := 0
  errs : List Nat := []
  marks : List (Nat × Nat) := []
deriving DecidableEq, Repr

/-- What a link's lanes carry (R251, R312 to R319, R409 to R412). On the Pofold link a frame holds the 18-bit symbols of a lane. -/
structure LinkPhy where
  /-- bytes of the block that is being filled -/
  block : List Byte := []
  /-- coded symbols that wait for a frame -/
  syms : List Sym := []
  /-- the frames sent last, oldest first: by lane, the codes that drive its DAC -/
  frames : List (List (Fin 18 × List Nat)) := []
  /-- the level that a lane sent last, and its PRBS generator once it has run -/
  level : SMap Nat := []
  prbs : SMap (Option (BitVec 31)) := []
  /-- symbols received and not yet decoded: of the map's stream at 18, of each lane's own on the training map -/
  rx : SMap (List Sym) := []
  /-- symbols of the map's stream that have been decoded -/
  taken : Nat := 0
  /-- flits decoded and not yet received -/
  ready : List RxFlit := []
  /-- Pofold link: symbols since the last K.SYNC sent, the scramblers of both directions by lane, and the data words received by
  lane, each with whether its symbol was in error -/
  since : Nat := 0
  txScr : SMap (BitVec 58) := []
  rxScr : SMap (BitVec 58) := []
  words : SMap (List (Nat × Bool)) := []
deriving DecidableEq, Repr

/-- An external link, or the flit layer of the Pofold link, behind its registers (R324 to R349, R361, R420). -/
structure XLink where
  /-- messages that wait for a flit, REQ and RSP -/
  reqq : List XMsg := []
  rspq : List XMsg := []
  /-- VCs 0 REQ and 1 RSP, or the four channels -/
  chans : SMap Chan := []
  /-- PLAN flits that wait for a place -/
  planq : List PlanFlit := []
  /-- link-control messages that wait for a place (R336) -/
  lctl : List (List Byte) := []
  /-- link-control messages repeated until their answer arrives -/
  repeats : List (List Byte) := []
  buf : List XTx := []
  next : BitVec 16 := 0
  acked : BitVec 16 := 0xFFFF
  /-- flits sent, whose low bits choose CVC or CCH -/
  turn : Nat := 0
  /-- the ACK and, by VC or channel, the credit counter that the flits sent last carried (R414) -/
  toldAck : Option (BitVec 16) := none
  told : SMap (Option (BitVec 32)) := []
  /-- places taken by RSP or PLAN flits while a REQ flit was ready (R331), and the channel served last (R422) -/
  reqWait : Nat := 0
  served : Nat := 3
  exp : BitVec 16 := 0
  /-- flits held above EXP: number and bytes -/
  held : List (BitVec 16 × List Byte) := []
  /-- numbers NAKed and not yet received (R327) -/
  naked : List (BitVec 16) := []
  /-- messages passed on and not yet handled, and link-control messages -/
  inbox : List XMsg := []
  lctlIn : List (List Byte) := []
  /-- the bytes of the flit sent last, and what the lanes carry -/
  wire : List Byte := []
  phy : LinkPhy := {}
  /-- flits lost since the last gap was NAKed (R319, R327) -/
  lost : Nat := 0
  /-- time in ns at which the replay timer started, while it runs (R330) -/
  timer : Option (BitVec 64) := none
  change : Option MapChange := none
  /-- lanes that wait for a change of the transmit map (R337) -/
  changes : List LaneChange := []
  /-- lanes of the receive usable set that wait for the partner's change: lane, enters (R337) -/
  rxAsk : List (Fin 18 × Bool) := []
  /-- times in ns of the last LANE_REQ by lane, which is repeated for 50 µs (R336) -/
  askedAt : SMap Nat := []
  /-- the receive map announced and not yet in use -/
  rxChange : Option MapChange := none
  /-- lanes that the partner's receiver can use: with the own transmit set, the lowest 16 make the map (R248) -/
  farRx : BitVec 18 := 0
  /-- lanes of the receive side that are aligned (R314) -/
  aligned : BitVec 18 := 0
  /-- state is held for the partner session of LNK_PSESSION (R342) -/
  holds : Bool := false
  adv : Option Advert := none
  /-- own CONFIRM sent, and the partner's received -/
  conf : Option Confirm := none
  pconf : Option Confirm := none
  /-- the flit whose eighth replay caused the last retrain, and the time of that retrain in ns (R340) -/
  culprit : Option (BitVec 16 × BitVec 64) := none
  /-- negotiation stopped by a wrong module number (R358) -/
  stopped : Bool := false
  /-- time in ns at which the grace timer started -/
  graceFrom : BitVec 64 := 0
  /-- its length in ms, as LNK_CFG gave it at the down -/
  graceMs : Nat := 10
  probeNum : Word := 0
  probes : List Probe := []
  /-- the last exchanges: delay and offset in 1/16 beat, newest first, at most 8 (R361) -/
  meas : List (Int × Int) := []
deriving DecidableEq, Repr

/-- The Pofold link's training and sessions (R413 to R425): phase of R418, rate under test, lanes aligned at either end, lanes
passing at 20 and 40 Gb/s at either end, the far end's rates, session, pools and selection, and what the present selection,
retrain, tap requests and last session left. -/
structure Hlk where
  phase : Nat := 1
  rate40 : Bool := false
  aligned : BitVec 8 := 0
  far : BitVec 8 := 0
  farRates : Nat := 0
  pass20 : BitVec 8 := 0
  pass40 : BitVec 8 := 0
  farPass20 : BitVec 8 := 0
  farPass40 : BitVec 8 := 0
  /-- lanes whose equalisation at the rate under test has ended, and requests made by lane -/
  eqDone : BitVec 8 := 0
  requests : SMap Nat := []
  sel : Option (Nat × Bool) := none
  farSel : Option (Nat × Bool) := none
  farSession : Word := 0
  pools : List Nat := []
  retrain : Bool := false
  fails : Nat := 0
  /-- previous session and its accept counts, for the LINK_UP notice -/
  oldSession : Word := 0
  oldCounts : List Word := []
  /-- the request that this end makes of each lane, coded as symbol 3 of R418 -/
  asks : SMap Nat := []
  /-- tap requests while UP, by lane: the code of one whose effect the next EFM report shows, the EFM it was made at, and the
  time in ns from which the next may go out -/
  asked : SMap (Nat × Nat × Nat) := []
  /-- symbols received by lane, those with a prefix error counted (R413) -/
  prefixes : SMap SymbolCount := []
deriving DecidableEq, Repr

/-- An entry of the mirror-compare table (R384): an own hash or the partner's, and the time in ns it was entered. -/
structure McEnt where
  own : Bool
  h : HashRec
  entered : BitVec 64
deriving DecidableEq, Repr

/-! ### Rings and calibration (R247 to R280) -/

/-- A ring (R261, R263): lock code, feed-forward offset and target in 1/256 code, coefficients, and the class change that it
is judged by. -/
structure Ring where
  lock : Nat := 0
  ff : Int := 0
  tgt : Int := 0
  coeff : List Int := [0, 0, 0, 0, 0, 0, 0, 0]
  known : List Bool := [true, false, false, false, false, false, false, false]
  cls : Fin 8 := 0
  prev : Fin 8 := 0
  /-- microseconds since the class change -/
  held : Nat := 0
  /-- heater before the class change, where the class had been held for 5τ -/
  before : Option Int := none
  /-- the shift observed when the class had been held for 5τ, not yet learned from -/
  obs : Option Int := none
  miss : Bool := false
  /-- the lock was lost since the class change -/
  lost : Bool := false
  /-- change of the target at the class change, and the lock code then (R264) -/
  moved : Int := 0
  lockAt : Int := 0
deriving DecidableEq, Repr

/-- Level table and pre-distortion coefficient of a lane in a mode (R251). -/
structure LaneCal where
  levels : List Nat := []
  pdc : Nat := 0
deriving DecidableEq, Repr

/-- A calibration turn on a port (R268, R269): its lane, the measurement before, how often it was measured again, and
whether a class change voids the measurement in progress. -/
structure CalTurn where
  lane : LaneId
  /-- rings of the lane that it measures: both in a module-wide turn (R266), the transmit ring alone in an external port's own
  turn and the receive ring in its partner's (R267), the ring found again after a lost lock or a hop (R256, R262) -/
  tx : Bool := true
  rx : Bool := true
  prev : Option CalMeas := none
  again : Nat := 0
  void : Bool := false
deriving DecidableEq, Repr

/-- What a port's controllers hold behind its registers. -/
structure PortCal where
  /-- τ in force (R284) -/
  tau : Nat := 200
  turn : Option CalTurn := none
  /-- lanes found again, and lanes of the partner's turns, that await acceptance (R256, R262, R267) -/
  accept : List CalTurn := []
  /-- accepted values that take effect at the next change point (R268) -/
  values : List (CalTurn × CalMeas) := []
  /-- lanes of a module-wide turn that rejoin at a guard with s mod 256 = 0 (R266) -/
  rejoin : BitVec 18 := 0
  /-- the port against which its margin test runs (R275, R278) -/
  partner : Option (Fin 132) := none
  /-- suspect lanes accepted in their last turn (R270) -/
  once : BitVec 18 := 0
  /-- lanes whose suspect mark the host cleared: out of their sets until a turn accepts them (R270) -/
  await : BitVec 18 := 0
  /-- lanes that failed the margin test at the selected mode (R276) -/
  excluded : BitVec 18 := 0
  /-- times in ns of the last misses (R264) -/
  misses : List (BitVec 64) := []
  /-- lanes that passed the last margin test (R276) -/
  nrz : BitVec 18 := 0
  pam4 : BitVec 18 := 0
  /-- F of R254 by lane -/
  f : SMap Nat := []
  /-- E and MF that the partner reports, by lane (R291) -/
  farE : SMap Nat := []
  farMf : SMap Nat := []
  /-- the partner's last eye measurements by lane and mode, 4 to a lane (R267) -/
  caldata : SMap (List (BitVec 16 × BitVec 16)) := []
deriving DecidableEq, Repr

/-- What the last-good table holds (R259): ring codes, coefficients and known flags; reference readings by port; level
tables; usable sets, suspect marks and mode by port; phase entries; element trims. -/
structure LgtData where
  rings : SMap (Nat × List Int × List Bool) := []
  temps : SMap Int := []
  lanes : SMap LaneCal := []
  sets : SMap (Word × Word × Word × Nat) := []
  phases : SMap Int := []
  trims : SMap Nat := []
deriving DecidableEq, Repr

/-- A valid copy of the table. -/
structure LgtCopy where
  gen : BitVec 24
  data : LgtData
deriving DecidableEq, Repr

structure Rings where
  /-- by ring number: 36 to a port, transmit rings first -/
  rings : SMap Ring := []
  ports : SMap PortCal := []
  /-- by lane (18 to a port) and mode -/
  lanes : SMap LaneCal := []
  /-- phase entries in 1/32 UI by receiving lane and source position; the entries that are stale (R268) -/
  phases : SMap Int := []
  stale : List Nat := []
  /-- equaliser coefficients by receiving lane, source and mode, 3 to a source (R253) -/
  eq : SMap (List Int) := []
  /-- changes of internal ports' usable sets that wait for the next slot guard: port, transmit set, lane, enters (R247) -/
  atGuard : List (Fin 132 × Bool × Fin 18 × Bool) := []
  /-- entries that the next turn refreshes first, after three lock failures in a row: receiving and source positions (R229,
  R268) -/
  relearn : List (Nat × Nat) := []
  /-- FEC symbols by receiving lane, and after those of 132 ports by the transmitting lane that they came from (R254, R291) -/
  fec : SMap SymbolCount := []
  /-- the codes that drove a transmitting lane's DAC in its last burst (R251) -/
  drive : SMap (List Nat) := []
  trims : SMap Nat := []
  /-- lane of the next module-wide turn and the time in ns at which the last one ended; the same by external port (R266, R267) -/
  next : Nat := 0
  ended : BitVec 64 := 0
  xnext : SMap Nat := []
  xended : SMap (BitVec 64) := []
  /-- the write of the table in progress: copy B, and its content (R260) -/
  writing : Option (Bool × LgtData) := none
deriving DecidableEq, Repr

/-! ### Light and eye safety (R287 to R306) -/

/-- A handover (R295): its line, the spare, how far it has come (0 tuning, 1 locked, 2 shutter open, 3 ramped, 4 checked), the
ports whose lane is out for it, and those that passed the check. -/
structure Handover where
  line : LaneId
  spare : Fin 2
  stage : Nat := 0
  ports : List PortId := []
  passed : List PortId := []
deriving DecidableEq, Repr

/-- What a bank controller holds behind its registers. -/
structure Bank where
  /-- lines that wait for their handover, in the order in which they reached stage 2 (R294) -/
  waiting : List LaneId := []
  ho : Option Handover := none
  /-- waiting lines whose lane is out ahead of their turn, and the ports it left -/
  early : SMap (List PortId) := []
  /-- lasers FAILED: F0-F17, T0, T1 -/
  failed : BitVec 20 := 0
  /-- powers of the last millisecond, by laser, newest first -/
  recent : SMap (List (BitVec 64 × Int)) := []
  /-- time in ns of the last NOTLASER report, by line -/
  notAt : SMap (Option (BitVec 64)) := []
  /-- until this time in ns Pref takes the measured values (R290) -/
  prefUntil : BitVec 64 := 0
deriving DecidableEq, Repr

/-- A bank in the record (R290): sources and drives by line, laser states, spares as LB_SPARE has them, Pref by laser. -/
structure BankData where
  lines : List (Nat × Nat)
  failed : BitVec 20
  spares : List Nat
  pref : List Nat
deriving DecidableEq, Repr

/-- A valid copy of the bank record. -/
structure BankCopy where
  gen : BitVec 24
  banks : List BankData
deriving DecidableEq, Repr

/-- The light supply and the eye safety of the external ports. -/
structure LightSupply where
  banks : SMap Bank := []
  /-- a change waits for the record to be written; the copy in use is B, and its GEN -/
  dirty : Bool := false
  recB : Bool := false
  gen : BitVec 24 := 0
  /-- LB6 has lost its light (R303), and is off until the power is cycled (R304) -/
  lb6Dark : Bool := false
  lb6Off : Bool := false
  /-- ports whose darkness the output monitor has still to confirm (R303) -/
  darkening : BitVec 16 := 0
  /-- attenuating elements of the external ports: 0 blocking, 1 open, 2 at 3 dB (R277, R303, R305) -/
  atten : SMap Nat := []
deriving DecidableEq, Repr

/-- The on-module EEPROM (R259, R290, R456): copies of the last-good table and of the bank record, helper data, certificate
chain, and the module stepping. -/
structure Eeprom where
  lgtA : Option LgtCopy := none
  lgtB : Option LgtCopy := none
  bankA : Option BankCopy := none
  bankB : Option BankCopy := none
  helper : List Byte := []
  chain : List Byte := []
  stepping : Byte := 0
deriving DecidableEq, Repr

/-! ### Image and guest (R232, R447 to R457) -/

/-- What the image in use gave beyond the registers it loaded: digests of FW, CFG and POL, hash of the owner key, SVN, the
guest key hash of the policy, and EXT_WAIT. -/
structure Image where
  fw : BitVec 384 := 0
  cfg : BitVec 384 := 0
  pol : BitVec 384 := 0
  owner : BitVec 384 := 0
  svn : Word := 0
  guestKey : Option (BitVec 384) := none
  extWait : Nat := 0
deriving DecidableEq, Repr

/-! ### Partner mode (R371 to R378) -/

/-- What the partner functions hold behind their registers. -/
structure Lease where
  /-- number of the last RENEW sent or granted -/
  num : Word := 0
  /-- RENEWs sent and not answered, with the beat of each -/
  sent : List (Word × BitVec 64) := []
  /-- lead: beat at which it sent the most recent RENEW that was granted -/
  grantSent : Option (BitVec 64) := none
  /-- shadow: beat at which it received the last RENEW it granted -/
  granted : Option (BitVec 64) := none
  /-- shadow: GROUPFAIL has arrived, and every later RENEW is refused -/
  refusing : Bool := false
  /-- lead: beat at which it sent YIELD; shadow: beat at which it takes the lead after one -/
  yieldSent : Option (BitVec 64) := none
  yieldTake : Option (BitVec 64) := none
  /-- shadow: it has asked for the token back (R378) -/
  asked : Bool := false
  /-- time in ns of the last event that was not clean (R378) -/
  unclean : BitVec 64 := 0
  /-- SYNCING: contexts whose step copy has arrived -/
  synced : List CtxId := []
deriving DecidableEq, Repr

/-- Pins, sideband signals and the feeds of the guest site (R364, R487, R501, R559, R581 to R583). -/
structure Pins where
  /-- beat from which SYNC_OUT is high -/
  syncOut : Option (BitVec 64) := none
  /-- ERR_N is in a pulse; the time of its last release in ns; a pulse is deferred -/
  errPulse : Bool := false
  errReleased : Option (BitVec 64) := none
  errDeferred : Bool := false
  /-- THERMTRIP_N is driven low -/
  thermtrip : Bool := false
  /-- dynamic address and register pointer of the I3C target, and the five bytes of its last private read -/
  i3cAddr : Option (BitVec 7) := none
  i3cPtr : Word := 0
  i3cOut : List Byte := []
  /-- XSPI_RST_N is driven low, since this real time in picoseconds (R581) -/
  xspiReset : Option Nat := none
  /-- GS_CORE and GS_IO are on, since this real time in picoseconds; off where none (R583) -/
  guestFeed : Option Int := none
deriving DecidableEq, Repr

/-! ### Faults (R482 to R488) -/

/-- An escalation timer that runs or is paused: the code of the event that started it, the picoseconds left, and the subtype and
INSTANCE of every uncorrected-contained event of its source since then (R483, R484). -/
structure EscTimer where
  code : BitVec 8
  left : Nat
  scopes : List (BitVec 4 × BitVec 16)
deriving DecidableEq, Repr

/-- What the fault collector holds behind its registers. -/
structure Collector where
  /-- by source -/
  timers : SMap (Option EscTimer) := []
  /-- subtype and INSTANCE of the events behind each bit of FLT_STATUS1 (R488) -/
  recorded : SMap (List (BitVec 4 × BitVec 16)) := []
  /-- history entries, and 16 for the capture, whose check failure has been reported since they were written (R482) -/
  checked : List Nat := []
deriving DecidableEq, Repr

/-! ### Start-up (R440 to R472) -/

/-- An operation of HUB_FLASHCTL in progress (R471): OP and ADDR, and the buffer as it was when it started. -/
structure FlashOp where
  op : Fin 3
  addr : Nat
  buf : List Byte
deriving DecidableEq, Repr

/-- What the standby island and the management core hold behind their registers. -/
structure Boot where
  /-- the island is out of its reset (R440) -/
  island : Bool := true
  /-- phase of R442 in progress, 0 outside a start -/
  phase : Nat := 0
  /-- the start follows a warm reset -/
  warm : Bool := false
  /-- stack contents are to be zeroed in phase 4 (R462, R465) -/
  zeroDue : Bool := true
  /-- the last-good table is invalid: a first start (R442) -/
  first : Bool := false
  /-- from the start event: guest contact and PUF response -/
  guest : Bool := false
  puf : List Byte := []
  /-- device identity key of the key store (R456) -/
  key : Option (BitVec 384) := none
  /-- the nonce words of the attestation report in production (R458, R563) -/
  attNonce : List Word := []
  flashOp : Option FlashOp := none
  /-- stacks whose contents self-refresh keeps while their base die is off (R29, R463) -/
  kept : BitVec 32 := 0
  /-- real time at which the start and its phase in progress began (R442, R445, R469) -/
  began : Nat := 0
  phaseAt : Nat := 0
  /-- real time before which no start begins: 1 ms after a warm reset, 10 ms after standby power (R463, R579) -/
  startFrom : Nat := 0
  /-- the host has asked for alignment (R362, R386), and the time in ns of the last step of the beat counter, after which the peers
  are measured again -/
  realign : Bool := false
  stepped : Option Nat := none
  /-- the completion that left the module before a reset began (R463) -/
  lastSent : Option Sent := none
deriving DecidableEq, Repr

/-! ### Thermal and power (R511 to R515) -/

/-- A retirement or restoration in progress (R512, R514): its die, whether it restores, and whether the drain has begun. -/
structure DieOp where
  die : DieId
  restore : Bool
  draining : Bool := false
deriving DecidableEq, Repr

/-! ### The beat in progress (R12, R38) -/

/-- A register whose read-clear counters have counted in the present beat: its word before, and the counts of the beat alone. -/
structure RcBeat where
  old : Word
  add : Word
deriving DecidableEq, Repr

/-- What the present beat has seen so far, where the rules order two things of one beat by more than which came first. -/
structure BeatLog where
  /-- bits that events have set, by register (R12) -/
  flags : SMap Word := []
  /-- read-clear counters that have counted, by register, and the slip counters of a Caller's contexts (R12) -/
  counts : SMap (Option RcBeat) := []
  slips : SMap (Option (Slip × Slip)) := []
  /-- increments that signals have added to sync objects (R135), and the VALUEs that the hub has sent (R132) -/
  signals : SMap Nat := []
  values : List Msg := []
  /-- runs of SRAM bytes written through main ports, and through landing ports (R86) -/
  main : List (Nat × Nat) := []
  landed : List (Nat × Nat) := []
  /-- HUB_INV and HUB_MEMINV as they were when the beat began (R38) -/
  inv : Word := 0
  meminv : Word := 0
deriving DecidableEq, Repr

/-! ### The machine -/

/-- The state of the module. -/
structure State where
  /-- commands that wait, first in, first out -/
  pending : List Instr
  /-- registers of the management space by address; a pair's second word and every array instance is its own entry -/
  regs : SMap Word
  /-- low words written and not yet in effect, by address (R563) -/
  lowWords : SMap (Option Word)
  /-- upper words latched for a requester: 0-3 host channels, 4 I3C, 5 the core (R564) -/
  latches : SMap (Option (Nat × Word))
  /-- bytes of the module physical space (R173): the stacks, the SRAM of the dies, the page directory -/
  mem : List Host.Cell
  /-- weight of the error each 8-byte word holds, by PA / 8: 1 correctable, 2 poisoned (R88, R165, R180) -/
  ecc : SMap Nat
  /-- the beat counter of the hub (R30) -/
  beat : BitVec 64
  /-- real time in picoseconds, by which durations in ns, us, ms and s are measured (R5) -/
  clock : Nat
  /-- what the present beat has seen (R12, R38): the model's own -/
  now : BeatLog
  /-- beats by which a Caller's count lags the hub's (R72): the model's own, any value -/
  lag : Nat
  /-- the number of free values taken: the model's own -/
  freeCtr : Nat
  /-- events on their way to the collector (R473) -/
  reports : List FaultReport
  /-- messages in transit inside the module -/
  net : List Msg
  /-- flits in flight through the mesh -/
  flight : List MeshFlit
  /-- messages sent to the host and not yet taken -/
  hostOut : List Sent
  /-- the return queue (R425) -/
  retq : List Sent
  /-- X15_HOST as the present start took it (R434) -/
  x15Host : Bool
  /-- Callers 4n + k (R112) and their states for each context, at 64 × (4n + k) + c (R113) -/
  callers : SMap Caller
  cctx : SMap CallerCtx
  /-- SRAM windows that stay in force until a written TD_CTXWIN takes effect, at 64 × die + context (R111) -/
  wins : SMap (Option Word)
  /-- Callers 4n + k whose transfer waits for a shared mover tag, oldest request first (R90) -/
  tagWait : List Nat
  waiters : List Waiter
  cells : SMap Cell
  tlb : List TlbEnt
  walks : List Walk
  segs : List Seg
  readReqs : List ReadReq
  /-- read requests that wait for a tag, oldest first -/
  readWait : List ReadReq
  ctxs : SMap CtxHub
  mesh : Mesh
  base : BaseLinks
  dbg : Debug
  /-- X0-X15, and the Pofold link as 16 -/
  links : SMap XLink
  remotes : List Remote
  /-- TAG of the next request to another module -/
  nextTag : BitVec 16
  /-- the mirror-compare table, oldest first -/
  mc : List McEnt
  /-- results the module holds back, with the time of each in ns, oldest first (R374) -/
  heldResults : List (BitVec 64 × HostMsg)
  /-- START_STEP commands held while SYNCING, oldest first (R377) -/
  syncHeld : List HeldStart
  copyOp : Option CopyOp
  image : Image
  /-- the nonce that the hub sent to the guest (R232) -/
  guestNonce : BitVec 384
  opt : Rings
  eeprom : Eeprom
  /-- dies left out at start for a port that failed its margin test (R443) -/
  leftOut : BitVec 12
  hlk : Hlk
  light : LightSupply
  lease : Lease
  pins : Pins
  /-- a write of HUB_MODE that takes effect in the next beat (R397) -/
  modeNext : Option (BitVec 2)
  flt : Collector
  boot : Boot
  /-- the slot flash (R446): bytes by address, 0xFF where unlisted -/
  flash : SMap Byte
  dieOp : Option DieOp
  /-- sensors that are tested again, with the broken state they keep until then (R499) -/
  recheck : List (Fin 264)
deriving DecidableEq, Repr

/-- Why the machine stops: no rule of the spec stops this block, so no command raises a fault (safe). -/
inductive Fault where
  /-- raised by nothing; stands for a rule that would stop the block (safe) -/
  | halted
deriving DecidableEq, Repr

/-- Why a command is given no meaning. -/
inductive Refusal where
  /-- raised by an arm of exec for a command without a meaning (safe) -/
  | notModelled (mnemonic : String)
deriving DecidableEq, Repr

/-- The machine after a cold start of the standby island (R462, R440): every register at its reset value, nothing
listed in any memory, every queue empty. -/
def State.reset : State where
  pending := []
  regs := []
  lowWords := []
  latches := []
  mem := []
  ecc := []
  beat := 0
  clock := 0
  now := {}
  lag := 2
  freeCtr := 0
  reports := []
  net := []
  flight := []
  hostOut := []
  retq := []
  x15Host := false
  callers := []
  cctx := []
  wins := []
  tagWait := []
  waiters := []
  cells := []
  tlb := []
  walks := []
  segs := []
  readReqs := []
  readWait := []
  ctxs := []
  mesh := {}
  base := {}
  dbg := {}
  links := []
  remotes := []
  nextTag := 0
  mc := []
  heldResults := []
  syncHeld := []
  copyOp := none
  image := {}
  guestNonce := 0
  opt := {}
  eeprom := {}
  leftOut := 0
  hlk := {}
  light := {}
  lease := {}
  pins := {}
  modeNext := none
  flt := {}
  boot := {}
  flash := []
  dieOp := none
  recheck := []

end Sys2Proof.Machine
end

