-- ==== Sys2Proof/Machine/Names.lean ====
section
/-! DEFINITION. The addresses of the registers by name (R9, R554 to R556); arguments are the instance numbers, outermost
first. Ring blocks are reached through `ringBase` (R280). -/
namespace Sys2Proof.Machine

def aHubId : Nat := 0x0
def aHubInv : Nat := 0x4
def aHubMeminv : Nat := 0x8
def aHubAcellBusy (i : Nat) : Nat := 0x800 + 0x4 * i
def aHubAcellFree : Nat := 0x820
def aTdNumstat (i : Nat) : Nat := 0x1000400 + 0x100000 * i
def aTdNumfirst0 (i : Nat) : Nat := 0x1000404 + 0x100000 * i
def aTdNumfirst1 (i : Nat) : Nat := 0x1000408 + 0x100000 * i
def aTdId (i : Nat) : Nat := 0x1000000 + 0x100000 * i
def aTdState (i : Nat) : Nat := 0x1000004 + 0x100000 * i
def aTdRate (i : Nat) : Nat := 0x1000008 + 0x100000 * i
def aTdSramerr (i : Nat) : Nat := 0x1000100 + 0x100000 * i
def aTdSramfirst0 (i : Nat) : Nat := 0x1000104 + 0x100000 * i
def aTdSramfirst1 (i : Nat) : Nat := 0x1000108 + 0x100000 * i
def aTdMvstat (i : Nat) : Nat := 0x1000200 + 0x100000 * i
def aTdPortstat (i j : Nat) : Nat := 0x1000300 + 0x100000 * i + 0x4 * j
def aTdUnitstat (i : Nat) : Nat := 0x1000500 + 0x100000 * i
def aTdCtxwin (i j : Nat) : Nat := 0x1001000 + 0x100000 * i + 0x4 * j
def aHubSyncval (i : Nat) : Nat := 0x10000 + 0x4 * i
def aHubSynccfg (i : Nat) : Nat := 0x14000 + 0x4 * i
def aHubSyncerr : Nat := 0x840
def aTdCtxtab (i j k : Nat) : Nat := 0x1001400 + 0x100000 * i + 0x10 * j + 0x4 * k
def aTdCallstate (i j : Nat) : Nat := 0x1002000 + 0x100000 * i + 0x40 * j
def aTdCallpc (i j : Nat) : Nat := 0x1002004 + 0x100000 * i + 0x40 * j
def aTdCallanch0 (i j : Nat) : Nat := 0x1002008 + 0x100000 * i + 0x40 * j
def aTdCallanch1 (i j : Nat) : Nat := 0x100200c + 0x100000 * i + 0x40 * j
def aTdCallslip (i j : Nat) : Nat := 0x1002010 + 0x100000 * i + 0x40 * j
def aTdCallslipmax (i j : Nat) : Nat := 0x1002014 + 0x100000 * i + 0x40 * j
def aTdCallslipsum (i j : Nat) : Nat := 0x1002018 + 0x100000 * i + 0x40 * j
def aTdCallcause (i j : Nat) : Nat := 0x100201c + 0x100000 * i + 0x40 * j
def aTdCallfetch (i j : Nat) : Nat := 0x1002020 + 0x100000 * i + 0x40 * j
def aHubCtxstate (i : Nat) : Nat := 0x2000 + 0x40 * i
def aHubCtxcfg (i : Nat) : Nat := 0x2004 + 0x40 * i
def aHubCtxstep0 (i : Nat) : Nat := 0x2008 + 0x40 * i
def aHubCtxstep1 (i : Nat) : Nat := 0x200c + 0x40 * i
def aHubCtxrseed0 (i : Nat) : Nat := 0x2010 + 0x40 * i
def aHubCtxrseed1 (i : Nat) : Nat := 0x2014 + 0x40 * i
def aHubCtxsseed0 (i : Nat) : Nat := 0x2018 + 0x40 * i
def aHubCtxsseed1 (i : Nat) : Nat := 0x201c + 0x40 * i
def aHubCtxptr0 (i : Nat) : Nat := 0x2020 + 0x40 * i
def aHubCtxptr1 (i : Nat) : Nat := 0x2024 + 0x40 * i
def aHubCtxsave0 (i : Nat) : Nat := 0x2028 + 0x40 * i
def aHubCtxsave1 (i : Nat) : Nat := 0x202c + 0x40 * i
def aPbMemstat (i j : Nat) : Nat := 0x2000100 + 0x100000 * i + 0x4 * j
def aPbMemctl (i j : Nat) : Nat := 0x2000140 + 0x100000 * i + 0x4 * j
def aPbMemerr (i j : Nat) : Nat := 0x2000120 + 0x100000 * i + 0x4 * j
def aPbMctag (i : Nat) : Nat := 0x2000160 + 0x100000 * i
def aHubTlbinv0 : Nat := 0x900
def aHubTlbinv1 : Nat := 0x904
def aHubTlbstat : Nat := 0x908
def aHubPderr : Nat := 0x90c
def aHubRmtwin0 (i : Nat) : Nat := 0x940 + 0x8 * i
def aHubRmtwin1 (i : Nat) : Nat := 0x944 + 0x8 * i
def aHubXlf0 (i : Nat) : Nat := 0x3000 + 0x10 * i
def aHubXlf1 (i : Nat) : Nat := 0x3004 + 0x10 * i
def aHubXlf2 (i : Nat) : Nat := 0x3008 + 0x10 * i
def aHubXlf3 (i : Nat) : Nat := 0x300c + 0x10 * i
def aHubSlot : Nat := 0xa00
def aHubPlanctl : Nat := 0xa04
def aHubPlanstat : Nat := 0xa08
def aHubLedstat0 : Nat := 0xa0c
def aHubLedstat1 : Nat := 0xa10
def aHubMeshfail (i : Nat) : Nat := 0xb00 + 0x4 * i
def aHubSpare : Nat := 0xb80
def aGfwState : Nat := 0x9000000
def aGfwCtl : Nat := 0x9000004
def aGfwMeas (i : Nat) : Nat := 0x9000010 + 0x4 * i
def aGfwWin0 (i : Nat) : Nat := 0x9000100 + 0x8 * i
def aGfwWin1 (i : Nat) : Nat := 0x9000104 + 0x8 * i
def aGfwSyncallow (i : Nat) : Nat := 0x9000200 + 0x4 * i
def aGfwShare : Nat := 0x9000400
def aGfwErr : Nat := 0x9000404
def aHubCalctl : Nat := 0xc00
def aHubLgt : Nat := 0xc04
def aLbState (i : Nat) : Nat := 0x3000000 + 0x10000 * i
def aLbCtl (i : Nat) : Nat := 0x3000004 + 0x10000 * i
def aLbEvt (i : Nat) : Nat := 0x3000008 + 0x10000 * i
def aLbLine (i j : Nat) : Nat := 0x3000100 + 0x10000 * i + 0x4 * j
def aLbMon (i j : Nat) : Nat := 0x3000180 + 0x10000 * i + 0x4 * j
def aLbSpare (i j : Nat) : Nat := 0x3000200 + 0x10000 * i + 0x4 * j
def aEyeState (i : Nat) : Nat := 0x4002000 + 0x10000 * i
def aEyeCtl (i : Nat) : Nat := 0x4002004 + 0x10000 * i
def aEyeCnt (i : Nat) : Nat := 0x4002008 + 0x10000 * i
def aLnkState (i : Nat) : Nat := 0x4000000 + 0x10000 * i
def aLnkWidth (i : Nat) : Nat := 0x4000004 + 0x10000 * i
def aLnkRxmap (i : Nat) : Nat := 0x4000008 + 0x10000 * i
def aLnkCfg (i : Nat) : Nat := 0x400000c + 0x10000 * i
def aLnkCtl (i : Nat) : Nat := 0x4000010 + 0x10000 * i
def aLnkSeq (i : Nat) : Nat := 0x4000014 + 0x10000 * i
def aLnkRxseq (i : Nat) : Nat := 0x4000018 + 0x10000 * i
def aLnkCredit (i : Nat) : Nat := 0x400001c + 0x10000 * i
def aLnkPool (i : Nat) : Nat := 0x4000020 + 0x10000 * i
def aLnkErr0 (i : Nat) : Nat := 0x4000030 + 0x10000 * i
def aLnkErr1 (i : Nat) : Nat := 0x4000034 + 0x10000 * i
def aLnkErr2 (i : Nat) : Nat := 0x4000038 + 0x10000 * i
def aLnkInj (i : Nat) : Nat := 0x400003c + 0x10000 * i
def aLnkSession (i : Nat) : Nat := 0x4000040 + 0x10000 * i
def aLnkPsession (i : Nat) : Nat := 0x4000044 + 0x10000 * i
def aMmCfg : Nat := 0xd00
def aMmAlign : Nat := 0xd04
def aMmPeer : Nat := 0xd08
def aMmSync : Nat := 0xd0c
def aMmLink (i : Nat) : Nat := 0xd40 + 0x4 * i
def aPrtCfg : Nat := 0xd80
def aPrtCtl : Nat := 0xd84
def aPrtState : Nat := 0xd88
def aPrtCnt : Nat := 0xd8c
def aPrtCopy : Nat := 0xd90
def aMcCtl : Nat := 0xdc0
def aMcStat : Nat := 0xdc4
def aMcFirst0 : Nat := 0xdc8
def aMcFirst1 : Nat := 0xdcc
def aMcFirst2 : Nat := 0xdd0
def aMcFirst3 : Nat := 0xdd4
def aHubMode : Nat := 0x10
def aHubDettaint0 : Nat := 0x14
def aHubDettaint1 : Nat := 0x18
def aHlkState : Nat := 0x8000000
def aHlkCfg : Nat := 0x8000004
def aHlkCtl : Nat := 0x8000008
def aHlkSession : Nat := 0x800000c
def aHlkLane (i : Nat) : Nat := 0x8000010 + 0x4 * i
def aHlkErr0 : Nat := 0x8000030
def aHlkErr1 : Nat := 0x8000034
def aHlkRetq : Nat := 0x8000038
def aHlkInj : Nat := 0x800003c
def aHlkAccept (i : Nat) : Nat := 0x8000040 + 0x4 * i
def aHubBoot : Nat := 0xe00
def aHubRst : Nat := 0xe04
def aHubFwver : Nat := 0xe08
def aHubImggen : Nat := 0xe0c
def aHubCertlen : Nat := 0xe1c
def aHubFlashctl : Nat := 0xe10
def aHubFlashaddr : Nat := 0xe14
def aHubAttctl : Nat := 0xe18
def aHubNonce (i : Nat) : Nat := 0xe80 + 0x4 * i
def aFltE0 (i : Nat) : Nat := 0x5000100 + 0x20 * i
def aFltE1 (i : Nat) : Nat := 0x5000104 + 0x20 * i
def aFltE2 (i : Nat) : Nat := 0x5000108 + 0x20 * i
def aFltE3 (i : Nat) : Nat := 0x500010c + 0x20 * i
def aFltE4 (i : Nat) : Nat := 0x5000110 + 0x20 * i
def aFltStatus0 : Nat := 0x5000000
def aFltStatus1 : Nat := 0x5000004
def aFltStatus2 : Nat := 0x5000008
def aFltStatus3 : Nat := 0x500000c
def aFltAck : Nat := 0x5000010
def aFltTstat : Nat := 0x5000014
def aFltCfg : Nat := 0x5000018
def aFltErrn : Nat := 0x500001c
def aFltHqstat : Nat := 0x5000020
def aFltHqread : Nat := 0x5000024
def aFltFe0 : Nat := 0x5000040
def aFltFe1 : Nat := 0x5000044
def aFltFe2 : Nat := 0x5000048
def aFltFe3 : Nat := 0x500004c
def aFltFe4 : Nat := 0x5000050
def aFltFe5 : Nat := 0x5000054
def aFltInj (i : Nat) : Nat := 0x5000080 + 0x4 * i
def aFltIinj : Nat := 0x50000c0
def aTpCfg : Nat := 0x6000000
def aTpInput : Nat := 0x6000004
def aTpPeak : Nat := 0x6000008
def aTpTdctl : Nat := 0x600000c
def aTpSensctl : Nat := 0x6000010
def aTpBroken (i : Nat) : Nat := 0x6000040 + 0x4 * i
def aTpDom (i : Nat) : Nat := 0x6000100 + 0x4 * i
def aTpTdv (i : Nat) : Nat := 0x6000180 + 0x4 * i
def aTpSens (i : Nat) : Nat := 0x6000400 + 0x4 * i
def aDbgChpriv : Nat := 0x7000000
def aDbgChctx (i j : Nat) : Nat := 0x7000010 + 0x8 * i + 0x4 * j
def aDbgWd : Nat := 0x7000040
def aDbgDumpctl : Nat := 0x7000048
def aDbgDumpbase0 : Nat := 0x700004c
def aDbgDumpbase1 : Nat := 0x7000050
def aDbgExpstat : Nat := 0x7000054
def aDbgReelctl (i : Nat) : Nat := 0x7010000 + 0x1000 * i
def aDbgReelptr (i : Nat) : Nat := 0x7010004 + 0x1000 * i
def aDbgReeldrop (i : Nat) : Nat := 0x7010008 + 0x1000 * i
def aDbgSample (i : Nat) : Nat := 0x7010040 + 0x1000 * i
def aDbgTrigcfg0 (i : Nat) : Nat := 0x7010010 + 0x1000 * i
def aDbgTrigcfg1 (i : Nat) : Nat := 0x7010014 + 0x1000 * i
def aDbgTrigcap0 (i : Nat) : Nat := 0x7010020 + 0x1000 * i
def aDbgTrigcap1 (i : Nat) : Nat := 0x7010024 + 0x1000 * i
def aDbgTrigcap2 (i : Nat) : Nat := 0x7010028 + 0x1000 * i
def aDbgTrigcap3 (i : Nat) : Nat := 0x701002c + 0x1000 * i
def aDbgTrigcap4 (i : Nat) : Nat := 0x7010030 + 0x1000 * i
def aDbgSetTag (i j k : Nat) : Nat := 0x7010200 + 0x1000 * i + 0x80 * j + 0x20 * k
def aDbgSetInfo (i j k : Nat) : Nat := 0x7010204 + 0x1000 * i + 0x80 * j + 0x20 * k
def aDbgSetMuBusy (i j k : Nat) : Nat := 0x7010208 + 0x1000 * i + 0x80 * j + 0x20 * k
def aDbgSetVuBusy (i j k : Nat) : Nat := 0x701020c + 0x1000 * i + 0x80 * j + 0x20 * k
def aDbgSetStream (i j k : Nat) : Nat := 0x7010210 + 0x1000 * i + 0x80 * j + 0x20 * k
def aDbgSetReplay (i j k : Nat) : Nat := 0x7010214 + 0x1000 * i + 0x80 * j + 0x20 * k
def aDbgSetCorr (i j k : Nat) : Nat := 0x7010218 + 0x1000 * i + 0x80 * j + 0x20 * k
def aDbgSetBeat (i j k : Nat) : Nat := 0x701021c + 0x1000 * i + 0x80 * j + 0x20 * k
def aHubAttrep (i : Nat) : Nat := 0xf00 + 0x4 * i
def aHubCert (i : Nat) : Nat := 0x4000 + 0x4 * i
def aHubFlashbuf (i : Nat) : Nat := 0x5000 + 0x4 * i
def aPlanA (i : Nat) : Nat := 0x400000 + 0x4 * i
def aPlanB (i : Nat) : Nat := 0x800000 + 0x4 * i
def aDbgDcnt (i j k : Nat) : Nat := 0x7010100 + 0x1000 * i + 0x8 * j + 0x4 * k
def aDbgDsmp (i j k : Nat) : Nat := 0x7010180 + 0x1000 * i + 0x8 * j + 0x4 * k
def aDbgDsmpbeat (i j : Nat) : Nat := 0x70101b0 + 0x1000 * i + 0x4 * j
def aDbgCtxcnt (i j k l : Nat) : Nat := 0x7080000 + 0x400 * i + 0x40 * j + 0x8 * k + 0x4 * l

/-- Base of a port's ring block (R280). -/
def ringBase (p : Nat) : Nat :=
  if p < 96 then
    let d := p / 8
    0x2010000 + 0x100000 * (d / 3) + 0x400 * (8 * (d % 3) + p % 8)
  else if p < 112 then 0x4001000 + 0x10000 * (p - 96)
  else if p < 116 then 0x30000 + 0x400 * (p - 112)
  else if p < 120 then 0x2016000 + 0x100000 * (p - 116)
  else if p < 128 then 0x32000 + 0x400 * (p - 120)
  else 0x31000 + 0x400 * (p - 128)

def aRngState (p : Nat) : Nat := ringBase p
def aRngCtl (p : Nat) : Nat := ringBase p + 0x4
def aRngLock (p : Nat) : Nat := ringBase p + 0x8
def aRngRxlock (p : Nat) : Nat := ringBase p + 0xC
def aRngUse (p : Nat) : Nat := ringBase p + 0x10
def aRngRxuse (p : Nat) : Nat := ringBase p + 0x14
def aRngSuspect (p : Nat) : Nat := ringBase p + 0x18
def aRngMargin (p : Nat) : Nat := ringBase p + 0x1C
def aRngCalstat (p : Nat) : Nat := ringBase p + 0x20
def aRngFfcfg (p : Nat) : Nat := ringBase p + 0x24
def aRngLane (p l : Nat) : Nat := ringBase p + 0x100 + 4 * l
def aRngHeat (p l : Nat) : Nat := ringBase p + 0x180 + 4 * l

end Sys2Proof.Machine
end

