-- ==== Sys2Proof/Machine/Ops.lean ====
section
/-! DEFINITION. Named operations over the state: registers and their fields, saturating counters, events to the collector,
messages, memory with its error marks, and messages to the host. Every meaning is written over these. -/
namespace Sys2Proof.Machine

/-! ### Registers -/

/-- The register at `a`. -/
def State.rd (s : State) (a : Nat) : Word := SMap.get regDefault s.regs a

/-- The register at `a` becomes `v`. -/
def State.wr (s : State) (a : Nat) (v : Word) : State := { s with regs := SMap.set regDefault s.regs a v }

/-- Bits `hi` down to `lo` of the register at `a`. -/
def State.fld (s : State) (a hi lo : Nat) : Nat := getF (s.rd a) hi lo

/-- Bits `hi` down to `lo` of the register at `a` become `v`. -/
def State.setFld (s : State) (a hi lo v : Nat) : State := s.wr a (setF (s.rd a) hi lo v)

/-- Bit `b` of the register at `a`. -/
def State.bit (s : State) (a b : Nat) : Bool := (s.rd a).getLsbD b

def State.setBit (s : State) (a b : Nat) (v : Bool) : State := s.setFld a b b (if v then 1 else 0)

/-- Bits of the register at `a` that events have set in the present beat (R12). -/
def State.fresh (s : State) (a : Nat) : Word := SMap.get (fun _ => 0) s.now.flags a

/-- The bits of `m` are set in the register at `a` by an event: a clear of the same beat leaves them set (R12). -/
def State.flags (s : State) (a : Nat) (m : Word) : State :=
  { s with now := { s.now with flags := SMap.set (fun _ => 0) s.now.flags a (s.fresh a ||| m) } }.wr a (s.rd a ||| m)

/-- Bit `b` of the register at `a` is set by an event (R12). -/
def State.flag (s : State) (a b : Nat) : State := s.flags a (fieldMask b b)

/-- A word with bit 31 its VALID is captured by an event: a clear of VALID in the same beat leaves it set (R12). -/
def State.capture (s : State) (a : Nat) (v : Word) : State := (s.wr a v).flag a 31

/-- A word with the counter in bits `hi` down to `lo` counted up by `n`, saturating. -/
def countWord (w : Word) (hi lo n : Nat) : Word := setF w hi lo (min (getF w hi lo + n) (2 ^ (hi - lo + 1) - 1))

/-- The register at `a` before the present beat counted in it, and what the beat has counted (R12). -/
def State.rcBeat (s : State) (a : Nat) : RcBeat :=
  (SMap.get (fun _ => none) s.now.counts a).getD { old := s.rd a, add := 0 }

/-- A saturating counter in bits `hi` down to `lo` counts `n`; a read of the same beat still returns the word before (R12). -/
def State.count (s : State) (a hi lo n : Nat) : State :=
  let b := s.rcBeat a
  { s with now := { s.now with
      counts := SMap.set (fun _ => none) s.now.counts a (some { b with add := countWord b.add hi lo n }) } }.wr a
    (countWord (s.rd a) hi lo n)

/-- A high-water mark in bits `hi` down to `lo`. -/
def State.highWater (s : State) (a hi lo n : Nat) : State := s.setFld a hi lo (max (s.fld a hi lo) n)

/-- Registers of `[lo, hi]` back at their reset values. -/
def State.resetRegs (s : State) (lo hi : Nat) : State := { s with regs := SMap.clear s.regs lo hi }

/-- A pair of registers as one 64-bit value, low word first. -/
def State.rd64 (s : State) (a : Nat) : BitVec 64 := s.rd (a + 4) ++ s.rd a

def State.wr64 (s : State) (a : Nat) (v : BitVec 64) : State :=
  (s.wr a (v.truncate 32)).wr (a + 4) ((v >>> 32).truncate 32)

/-! ### Real time (R5) -/

/-- Nanoseconds of real time. -/
def State.ns (s : State) : Nat := s.clock / 1000

/-- Real time as a stamp. -/
def State.stampNs (s : State) : BitVec 64 := BitVec.ofNat 64 s.ns

/-! ### Free values (log entry 2) -/

/-- The next free value. -/
def State.free (s : State) : BitVec 64 := Config.freeValue s.freeCtr

/-- The state with one more free value taken. -/
def State.tookFree (s : State) : State := { s with freeCtr := s.freeCtr + 1 }

/-! ### Events to the collector and messages -/

/-- An event goes out on its source's error line (R473). -/
def State.report (s : State) (r : FaultReport) : State := { s with reports := s.reports ++ [r] }

/-- A corrected event (R474). -/
def corrected (source : Nat) (event : BitVec 8) (detail : Nat) : FaultReport :=
  { source := Fin.ofNat 32 source, event := event, cls := 0, subtype := 0, inst := 0, detail := BitVec.ofNat 24 detail }

/-- An uncorrected-contained event with its subtype and INSTANCE (R474). -/
def contained (source : Nat) (event : BitVec 8) (subtype inst detail : Nat) : FaultReport :=
  { source := Fin.ofNat 32 source, event := event, cls := 1, subtype := BitVec.ofNat 4 subtype,
    inst := BitVec.ofNat 16 inst, detail := BitVec.ofNat 24 detail }

/-- A fatal event (R474). -/
def fatal (source : Nat) (event : BitVec 8) (detail : Nat) : FaultReport :=
  { source := Fin.ofNat 32 source, event := event, cls := 2, subtype := 0, inst := 0, detail := BitVec.ofNat 24 detail }

/-- An access error, event 0x23 with the requester's master code (R552). -/
def accessError (master : Nat) : FaultReport :=
  { corrected 24 0x23 master with master := BitVec.ofNat 4 master, access := 5 }

/-- The base die whose bond or controllers a TLB serves: a die's, or a stack controller's (R182). -/
def tlbBase (t : Fin 44) : Nat := if t.val < 12 then t.val / 3 else (t.val - 12) / 8

/-- The base-die links that a message crosses: up from a die's base die, down to it (R207, R208). A heat class stays above its
die, and the guest has its own link. -/
def msgLinks : Msg → List Nat
  | .signal _ _ _ d _ => [2 * (d.val / 3)]
  | .waitreg _ _ _ d _ => [2 * (d.val / 3)]
  | .waitcancel _ d _ => [2 * (d.val / 3)]
  | .read _ _ d _ => [2 * (d.val / 3)]
  | .post _ _ _ _ _ _ d _ => [2 * (d.val / 3)]
  | .anchorRelease _ _ _ _ d _ => [2 * (d.val / 3)]
  | .walkRequest t _ _ => [2 * tlbBase t]
  | .release _ _ d _ => [2 * (d.val / 3) + 1]
  | .value _ _ d _ _ => [2 * (d.val / 3) + 1]
  | .refusal _ _ _ d _ => [2 * (d.val / 3) + 1]
  | .result _ _ _ d => [2 * (d.val / 3) + 1]
  | .walkReply t _ _ _ => [2 * tlbBase t + 1]
  | .iack src _ d _ _ => 2 * (d.val / 3) :: (if src.val < 96 then [2 * (src / 24) + 1] else [])
  | .heat _ _ => []
  | .guestNonce _ => []
  | .guestRelease _ => []
  | .guestValue _ _ => []
  | .guestData _ => []
  | .guestWriteAck => []
  | .guestDenied => []

/-- Class of a message (R210): 1 for an acknowledgement, 3 for the others. -/
def msgClass : Msg → Nat
  | .iack _ _ _ _ _ => 1
  | _ => 3

/-- Something waits for a place of base-die link `l`. -/
def BaseLinks.wait (b : BaseLinks) (l : Nat) (x : LinkItem) : BaseLinks :=
  { b with waiting := SMap.set (fun _ => []) b.waiting l (SMap.get (fun _ => []) b.waiting l ++ [x]) }

/-- A message goes out: it waits for a place of each base-die link that it crosses. -/
def State.send (s : State) (m : Msg) : State :=
  { s with
    net := s.net ++ [m]
    base := (msgLinks m).foldl (fun b l => b.wait l { cls := msgClass m, msg := some m }) s.base }

/-- Upward places of PBk's link that class 6 may still take in the present slot (R213), and the state with `n` of them taken. -/
def State.places6 (s : State) (k : Nat) : Nat := SMap.get (fun _ => 20) s.base.free6 (2 * k)
def State.take6 (s : State) (k n : Nat) : State :=
  { s with base := { s.base with free6 := SMap.set (fun _ => 20) s.base.free6 (2 * k) (s.places6 k - n) } }

/-- `n` bytes of class 5 data wait for downward places of base die `k`'s link, a flit for each 240 (R208, R210). -/
def State.linkDown5 (s : State) (k n : Nat) : State :=
  { s with base := (List.range ((n + 239) / 240)).foldl (fun b _ => b.wait (2 * k + 1) { cls := 5 }) s.base }

/-- A message arrives: one copy of it leaves the net. -/
def State.take (s : State) (m : Msg) : State := { s with net := s.net.erase m }

/-! ### Start state, domains, parts in service -/

/-- Codes of HUB_BOOT.STATE (R469). -/
def bootState (s : State) : Nat := s.fld aHubBoot 31 28

def bootReady : Nat := 6
def bootNoImage : Nat := 7
def bootFaulted : Nat := 8
def bootQuiescing : Nat := 9
def bootQuiesced : Nat := 10

/-- Domain `d` of R27 is on (R520). -/
def domOn (s : State) (d : Nat) : Bool := s.fld (aTpDom d) 2 0 = 2

/-- The die is in service (R36). -/
def tdUp (s : State) (d : Nat) : Bool := s.bit aHubInv d

def pbUp (s : State) (k : Nat) : Bool := s.bit aHubInv (12 + k)

/-- The stack is in service (R37). -/
def mUp (s : State) (st : Nat) : Bool := s.bit aHubMeminv st

/-- The fatal latch (R485). -/
def fatalLatched (s : State) : Bool := s.bit aFltStatus3 31

/-- DET_STRICT (R396). -/
def detStrict (s : State) : Bool := s.bit aHubMode 0

/-- Own module number (R386). -/
def ownModule (s : State) : Nat := s.fld aMmCfg 2 0

/-- Code of PRT_STATE.STATE (R389). -/
def prtState (s : State) : Nat := s.fld aPrtState 2 0

/-! ### Memory (R173, R174) -/

/-- Where a physical address lies. -/
inductive Place where
  | stack (st : Nat) (off : Nat)
  | sram (d : Nat) (off : Nat)
  | dir (off : Nat)
  | remote (m : Nat) (off : Nat)
  | none
deriving DecidableEq, Repr

/-- The region of a physical address (R173); an address in the module's own remote window is local. -/
def place (own pa : Nat) : Place :=
  let local' (a : Nat) : Place :=
    if a < 0x20000000000 then
      (if a % 0x1000000000 < 0x900000000 then .stack (a / 0x1000000000) (a % 0x1000000000) else .none)
    else if a < 0x20000000000 + 12 * 0x8000000 then
      .sram ((a - 0x20000000000) / 0x8000000) ((a - 0x20000000000) % 0x8000000)
    else if 0x20100000000 ≤ a ∧ a < 0x20101000000 then .dir (a - 0x20100000000)
    else .none
  if 0x800000000000 ≤ pa ∧ pa < 0x1000000000000 then
    let m := (pa - 0x800000000000) / 0x100000000000
    let off := (pa - 0x800000000000) % 0x100000000000
    if off < 0x20000000000 then (if m = own then local' off else .remote m off) else .none
  else local' pa

/-- The local address a physical address stands for (R173). -/
def localPa (own pa : Nat) : Nat :=
  if pa / 0x100000000000 = 8 + own ∧ pa < 0x1000000000000 then pa % 0x100000000000 else pa

/-- PA of a byte of a die's SRAM. -/
def sramPa (d a : Nat) : Nat := 0x20000000000 + d * 0x8000000 + a % 0x8000000

/-- PA of a byte of a stack. -/
def stackPa (st off : Nat) : Nat := st * 0x1000000000 + off

/-- PA of a byte of the page directory. -/
def dirPa (off : Nat) : Nat := 0x20100000000 + off

/-- The byte at a local physical address. -/
def State.byte (s : State) (pa : Nat) : Byte := SMap.get (fun _ => (0 : Byte)) s.mem pa

/-- `n` bytes from `pa`. -/
def State.bytes (s : State) (pa : Nat) : Nat → List Byte
  | 0 => []
  | n + 1 => s.byte pa :: s.bytes (pa + 1) n

/-- Weight of the error that the 8-byte word holding `pa` carries. -/
def State.eccAt (s : State) (pa : Nat) : Nat := SMap.get (fun _ => 0) s.ecc (pa / 8)

def State.setEcc (s : State) (pa w : Nat) : State := { s with ecc := SMap.set (fun _ => 0) s.ecc (pa / 8) w }

/-- Bytes written at `pa`, without touching error marks. -/
def State.poke (s : State) (pa : Nat) (bs : List Byte) : State :=
  { s with mem := SMap.setList (fun _ => (0 : Byte)) s.mem pa bs }

/-- Fresh check bits on `n` 8-byte words from the word of index `w` (R88, R165). -/
def State.clearEcc (s : State) (w n : Nat) : State := { s with ecc := SMap.clear s.ecc w (w + n - 1) }

/-- Number of ones in an injection mask. -/
def popcount8 (m : Nat) : Nat := ((List.range 8).filter fun i => m.testBit i).length

/-- The pattern of FLT_INJk that the next 64-bit word written by its class on the instance takes, then ARM clears (R489).
A MASK of weight 1 leaves a single-bit error and one of weight 2 a double-bit error; above that the spec does not say,
and the weight is a free value of 0 to 2. -/
def State.inject (s : State) (k inst pa : Nat) : State :=
  if s.bit (aFltInj k) 31 && s.fld (aFltInj k) 23 16 = inst then
    let w := popcount8 (s.fld (aFltInj k) 7 0)
    let s₁ := s.setBit (aFltInj k) 31 false
    if w ≤ 2 then s₁.setEcc pa w else (s₁.setEcc pa (s₁.free.toNat % 3)).tookFree
  else s

/-! The hub's own checked words: plan banks, sync objects, the history and the first-error capture under their management
addresses, ledger tables, waiter table and anchor cells under numbers of the model's beyond them. Their error marks lie past
the module physical space. -/

def hubMark (a : Nat) : Nat := 0x1000000000000 + a
def aLedgerWord : Nat := 0x100000000
def aWaiterWord (slot : Nat) : Nat := 0x110000000 + 16 * slot
def aCellWord (i : Nat) : Nat := 0x120000000 + 64 * i

/-- A word of checker class `k` is written: fresh check bits, then an armed pattern (R489). -/
def State.hubWrite (s : State) (k a : Nat) : State := (s.setEcc (hubMark a) 0).inject k 0 (hubMark a)

/-- A word of structure `j` of event 0x20 is read: a single-bit error is corrected and reported, a double-bit error is fatal
(R476, R489). -/
def State.hubCheck (s : State) (j a : Nat) : State :=
  match s.eccAt (hubMark a) with
  | 0 => s
  | 1 => (s.setEcc (hubMark a) 0).report (corrected 24 0x20 j)
  | _ => s.report (fatal 24 0x21 j)

/-- The words of `n` bytes from `a` are read and checked. -/
def State.hubScan (s : State) (j a n : Nat) : State :=
  (s.ecc.filter fun e => hubMark a / 8 ≤ e.1 && e.1 < (hubMark a + n) / 8).foldl (fun s e => s.hubCheck j (8 * e.1 - hubMark 0)) s

/-- Structures of event 0x20. -/
def hubLedger : Nat := 1
def hubPlan : Nat := 2
def hubSync : Nat := 3
def hubCell : Nat := 4
def hubWaiter : Nat := 5

/-- The injection that a write of the word at `pa` meets: SRAM, stack or page directory (R489). -/
def State.injectAt (s : State) (pa : Nat) : State :=
  match place 8 pa with
  | .sram d _ => s.inject 0 d pa
  | .stack st _ => s.inject 2 st pa
  | .dir _ => s.inject 3 0 pa
  | _ => s

/-- The copy unit of an address: a 2 MiB page of a stack or 64 KiB of SRAM (R377). -/
def copyUnit (pa : Nat) : Nat := if pa < 0x20000000000 then pa / 0x200000 * 0x200000 else pa / 0x10000 * 0x10000

/-- Units written while the lead copies its state are dirty (R377). -/
def State.markDirty (s : State) (pa n : Nat) : State :=
  match s.copyOp with
  | none => s
  | some c =>
    let us := ((List.range (n / 0x10000 + 2)).map fun i => copyUnit (min (pa + 0x10000 * i) (pa + n - 1))).eraseDups
    { s with copyOp := some { c with dirty := c.dirty ++ us.filter fun u => !c.dirty.contains u } }

/-- Whole 8-byte words written at `pa`: data, fresh check bits, then a pattern armed for it. Every writer of the module
ends here (R88, R165, R181). -/
def State.write (s : State) (pa : Nat) (bs : List Byte) : State :=
  if bs = [] then s
  else (((s.poke pa bs).clearEcc (pa / 8) ((pa % 8 + bs.length + 7) / 8)).injectAt pa).markDirty pa bs.length

/-! ### The two ports of an SRAM bank (R83, R86) -/

/-- Runs of bytes that have a 128-byte line in common. -/
def linesMeet (a n b m : Nat) : Bool := n ≠ 0 && m ≠ 0 && a / 128 ≤ (b + m - 1) / 128 && b / 128 ≤ (a + n - 1) / 128

/-- LAND_COLL on the die of an SRAM address (R86). -/
def landColl (s : State) (pa : Nat) : State :=
  match place 8 pa with
  | .sram d _ => s.flag (aTdUnitstat d) 0
  | _ => s

/-- A main-port write of `n` bytes has been made: where a landing write of the same beat met one of its lines, a free value says
whether in the same bank step; the main-port data stand either way (R86). -/
def State.mainPort (s : State) (pa n : Nat) : State :=
  let s₁ := { s with now := { s.now with main := s.now.main ++ [(pa, n)] } }
  if s.now.landed.any fun w => linesMeet pa n w.1 w.2 then
    (if s.free.toNat % 2 = 1 then landColl s₁ pa else s₁).tookFree
  else s₁

/-- A landing write of `n` bytes turns `s` into `s₁`: where a main-port write of the same beat met one of its lines, a free value
says whether in the same bank step, and then the main-port data remain (R86). -/
def landedOver (s s₁ : State) (pa n : Nat) : State :=
  let hits := s.now.main.filter fun w => linesMeet pa n w.1 w.2
  let s₂ := { s₁ with now := { s₁.now with landed := s₁.now.landed ++ [(pa, n)] } }
  if hits = [] then s₂
  else if s.free.toNat % 2 = 0 then s₂.tookFree
  else
    landColl (hits.foldl (fun t w =>
      let lo := max w.1 pa
      t.write lo (s.bytes lo (min (w.1 + w.2) (pa + n) - lo))) s₂.tookFree) pa

/-- Bytes written through the landing port. -/
def State.landWrite (s : State) (pa : Nat) (bs : List Byte) : State := landedOver s (s.write pa bs) pa bs.length

/-- Index of the last 8-byte word of a run of bytes. -/
def lastWord (pa n : Nat) : Nat := (pa + n - 1) / 8

/-- The error marks within the words of a run of bytes: how many words hold a single-bit error, and the first poisoned
word's address. -/
def State.eccScan (s : State) (pa n : Nat) : Nat × Option Nat :=
  let hit := s.ecc.filter fun e => n ≠ 0 && pa / 8 ≤ e.1 && e.1 ≤ lastWord pa n
  ((hit.filter fun e => e.2 = 1).length, (hit.find? fun e => e.2 ≥ 2).map fun e => e.1 * 8)

/-- Single-bit errors of a run written back corrected. -/
def State.correct (s : State) (pa n : Nat) : State :=
  { s with ecc := s.ecc.filter fun e => !(n ≠ 0 && pa / 8 ≤ e.1 && e.1 ≤ lastWord pa n && e.2 = 1) }

/-! ### Bytes and words (R8) -/

/-- `n` bytes of a number, little-endian. -/
def leBytes : Nat → Nat → List Byte
  | 0, _ => []
  | n + 1, v => BitVec.ofNat 8 v :: leBytes n (v / 256)

/-- The number that bytes spell, little-endian. -/
def leNat : List Byte → Nat
  | [] => 0
  | b :: bs => b.toNat + 256 * leNat bs

/-- `n` bytes of a list from offset `o`, as a number. -/
def fieldAt (bs : List Byte) (o n : Nat) : Nat := leNat ((bs.drop o).take n)

/-- A list padded with zeros to `n` bytes, or cut to it. -/
def padTo (n : Nat) (bs : List Byte) : List Byte := (bs ++ List.replicate (n - bs.length) 0).take n

/-! ### Callers, contexts -/

/-- Number of a Caller, 4n + k. -/
def callerNo (d : DieId) (k : CallerId) : Nat := 4 * d.val + k.val

def State.caller (s : State) (d : DieId) (k : CallerId) : Caller := SMap.get (fun _ => {}) s.callers (callerNo d k)

def State.setCaller (s : State) (d : DieId) (k : CallerId) (c : Caller) : State :=
  { s with callers := SMap.set (fun _ => {}) s.callers (callerNo d k) c }

/-- Key of a Caller's state for a context. -/
def cctxNo (d : DieId) (k : CallerId) (c : CtxId) : Nat := 64 * callerNo d k + c.val

def State.cc (s : State) (d : DieId) (k : CallerId) (c : CtxId) : CallerCtx :=
  SMap.get (fun _ => {}) s.cctx (cctxNo d k c)

def State.setCc (s : State) (d : DieId) (k : CallerId) (c : CtxId) (v : CallerCtx) : State :=
  { s with cctx := SMap.set (fun _ => {}) s.cctx (cctxNo d k c) v }

def State.ctx (s : State) (c : CtxId) : CtxHub := SMap.get (fun _ => {}) s.ctxs c.val

def State.setCtx (s : State) (c : CtxId) (v : CtxHub) : State :=
  { s with ctxs := SMap.set (fun _ => {}) s.ctxs c.val v }

/-- Codes of HUB_CTXSTATE.STATE (R145). -/
def ctxState (s : State) (c : CtxId) : Nat := s.fld (aHubCtxstate c) 2 0
def setCtxState (s : State) (c : CtxId) (v : Nat) : State := s.setFld (aHubCtxstate c) 2 0 v

def ctxEmpty : Nat := 0
def ctxIdle : Nat := 1
def ctxReady : Nat := 2
def ctxRunning : Nat := 3
def ctxHeld : Nat := 4
def ctxSaving : Nat := 5
def ctxRestoring : Nat := 6

/-- The die set of a context (R160). -/
def inDieSet (s : State) (c : CtxId) (d : DieId) : Bool := s.bit (aHubCtxcfg c) d

/-- Every Caller of the module, in ascending number. -/
def allCallers : List (DieId × CallerId) :=
  (List.finRange 12).flatMap fun d => (List.finRange 4).map fun k => (d, k)

/-- The Callers of a context's die set. -/
def ctxCallers (s : State) (c : CtxId) : List (DieId × CallerId) := allCallers.filter fun p => inDieSet s c p.1

/-- A Caller runs a context: it holds it and is not free of it (R147). -/
def runs (s : State) (d : DieId) (k : CallerId) (c : CtxId) : Bool :=
  let q := s.caller d k
  q.ctx = some c && q.st ≠ .halted && q.st ≠ .held && q.st ≠ .idle

/-- Callers that run a context: HUB_CTXSTATE.ONCALL (R160). -/
def onCall (s : State) (c : CtxId) : Nat := (allCallers.filter fun p => runs s p.1 p.2 c).length

/-- A Caller is free to take the oldest entry of its run queue (R147). -/
def callerFree (q : Caller) : Bool :=
  match q.ctx with
  | none => true
  | some _ => q.st = .halted || q.st = .held || q.st = .idle

/-! ### Heat class of a die (R133) -/

/-- The die's heat class: the largest of its Callers' values. -/
def heatClass (s : State) (d : DieId) : Fin 8 :=
  (List.finRange 4).foldl (fun m k => if m < (s.caller d k).heat then (s.caller d k).heat else m) 0

/-- Level of a tensor-die domain: the lower of its thermal and power levels (R504). -/
def dieLevel (s : State) (d : Nat) : Nat := min (s.fld (aTpDom d) 20 16) (s.fld (aTpDom d) 12 8)

/-- The class that a die sends: capped by its level (R506). -/
def sentClass (s : State) (d : DieId) : Fin 8 := Fin.ofNat 8 (min (heatClass s d).val (dieLevel s d.val / 2))

/-- A changed class goes to the ring controllers: `s₁` follows `s`. -/
def cueHeat (s s₁ : State) (d : DieId) : State :=
  if sentClass s₁ d = sentClass s d then s₁ else s₁.send (.heat d (sentClass s₁ d))

/-- A Caller's value changes. -/
def setHeat (s : State) (d : DieId) (k : CallerId) (h : Fin 8) : State :=
  cueHeat s (s.setCaller d k { s.caller d k with heat := h }) d

/-- The value of a Caller that becomes free: 0 unless its run queue holds another context. -/
def freeHeat (s : State) (d : DieId) (k : CallerId) : State :=
  if (s.caller d k).queue = [] then setHeat s d k 0 else s

/-! ### External links -/

def State.link (s : State) (x : Nat) : XLink := SMap.get (fun _ => {}) s.links x
def State.setLink (s : State) (x : Nat) (l : XLink) : State := { s with links := SMap.set (fun _ => {}) s.links x l }

/-- Codes of LNK_STATE.STATE (R351). -/
def lnkState (s : State) (x : Nat) : Nat := s.fld (aLnkState x) 2 0
def lnkDown : Nat := 1
def lnkTrain : Nat := 2
def lnkUp : Nat := 3
def lnkRetrain : Nat := 4

/-- The link carries traffic or is retraining: it is not down (R341). -/
def lnkAlive (s : State) (x : Nat) : Bool := lnkState s x = lnkUp || lnkState s x = lnkRetrain

/-- Codes of RNG_STATE.STATE (R281). -/
def rngState (s : State) (p : Nat) : Nat := s.fld (aRngState p) 2 0
def setRngState (s : State) (p v : Nat) : State := s.setFld (aRngState p) 2 0 v
def rngSearch : Nat := 1
def rngMargin : Nat := 2
def rngUp : Nat := 3
def rngDown : Nat := 4
def rngTest : Nat := 5

/-- The port for traffic to module `m` that names none (R357, R359): the lower of the pair, the upper while that is down. -/
def peerPort (s : State) (m : Nat) : Nat :=
  let j := (m + 8 - ownModule s) % 8
  if lnkAlive s (2 * j - 2) then 2 * j - 2 else 2 * j - 1

/-- A request or response joins its VC's queue. -/
def xsend (s : State) (x : Nat) (rsp : Bool) (m : XMsg) : State :=
  let l := s.link x
  s.setLink x (if rsp then { l with rspq := l.rspq ++ [m] } else { l with reqq := l.reqq ++ [m] })

/-- A request to another module: its TAG is recorded until the answer arrives or the port is flushed. -/
def xrequest (s : State) (m : Nat) (msg : XMsg) (what : RemoteWhat) : State :=
  let x := peerPort s m
  let tag := s.nextTag
  let s₁ := xsend s x false { msg with tag := tag, m := Fin.ofNat 8 (ownModule s) }
  { s₁ with
    nextTag := tag + 1
    remotes := s₁.remotes ++ [{ x := Fin.ofNat 16 x, tag := tag, what := what }] }

/-! ### Messages to the host (R425, R430 to R433) -/

/-- The link that carries host messages is UP: the PFL, or X15 with X15_HOST (R434). -/
def hostUp (s : State) : Bool :=
  if s.x15Host then s.fld (aLnkState 15) 2 0 = 3 else s.fld aHlkState 2 0 = 3

/-- A message for the host, marked SHADOW in SHADOW, SYNCING and FENCED (R433): sent, or put in the return queue of
4,096 while the link is not UP, where the oldest gives way (R425). -/
def State.toHost (s : State) (m : HostMsg) : State :=
  let q : Sent := { msg := m, shadow := prtState s = 3 || prtState s = 4 || prtState s = 5 }
  if hostUp s then { s with hostOut := s.hostOut ++ [q] }
  else if s.retq.length < 4096 then { s with retq := s.retq ++ [q] }
  else { s with retq := s.retq.tail ++ [q] }.count aHlkRetq 31 16 1

/-- The module emits results: DISABLED or LEAD (R371). -/
def emits (s : State) : Bool := prtState s = 0 || prtState s = 2

/-- A TOKEN: emitted, or held back in a queue of 4,096 where the oldest gives way (R371, R374). -/
def State.emit (s : State) (m : HostMsg) : State :=
  if emits s then s.toHost m
  else if s.heldResults.length < 4096 then { s with heldResults := s.heldResults ++ [(s.stampNs, m)] }
  else { s with heldResults := s.heldResults.tail ++ [(s.stampNs, m)] }.count aPrtCnt 15 0 1

/-- A completion (R430): with NOCPL only when its STATUS is not OK. -/
def State.complete (s : State) (key : CplKey) (kind : Byte) (c : CtxId) (st : Status) (arg : BitVec 48) (data : List Byte) :
    State :=
  if key.nocpl && st = .ok then s else s.toHost (.cpl key kind c st arg data)

/-- A notice that concerns no context, on channel 0 (R432). -/
def State.notify (s : State) (source : Byte) (arg : BitVec 56) (data : List Byte) : State :=
  s.toHost (.notify 0 source none arg data)

/-- The channel of a context's TOKEN, STEP_DONE and NOTIFY messages (R430, R432). -/
def ctxChan (s : State) (c : CtxId) : ChanId := (s.ctx c).chan

/-- NOTIFY source 2: a context became HELD, with the die, Caller and FIGERR in bytes 16 to 18 (R432). -/
def notifyHeld (s : State) (d : DieId) (k : CallerId) (c : CtxId) (e : Fin 16) : State :=
  s.toHost (.notify (ctxChan s c) 2 (some c) (BitVec.ofNat 56 c.val)
    (padTo 16 [BitVec.ofNat 8 d.val, BitVec.ofNat 8 k.val, BitVec.ofNat 8 e.val]))

/-- The conditions a figure met, in TD_NUMSTAT and its first capture (R67). -/
def numStat (s : State) (d : DieId) (k : CallerId) (c : CtxId) (layer operator : Nat) (fl : NumFlags) : State :=
  if fl = 0 then s
  else
    let s₁ := s.flags (aTdNumstat d) (fl.zeroExtend 32)
    if s.bit (aTdNumfirst1 d) 31 then s₁
    else
      (s₁.wr (aTdNumfirst0 d) (BitVec.ofNat 32 (layer * 65536 + operator))).capture (aTdNumfirst1 d)
        (BitVec.ofNat 32 (2 ^ 31 + k.val * 2 ^ 14 + c.val * 256 + fl.toNat))

end Sys2Proof.Machine
end

