-- ==== Sys2Proof/Machine/Lanes.lean ====
section
/-! DEFINITION. What a lane has carried: its symbols and those in error, by receiver and by source (R254, R291, R319). -/
namespace Sys2Proof.Machine

/-- Key of a lane's calibration in a mode (R251). -/
def calKey (p l mode : Nat) : Nat := 3 * (18 * p + l) + mode

/-- Key of a phase entry: receiving lane and source (R229). -/
def phaseKey (p l src : Nat) : Nat := 256 * (18 * p + l) + src

/-- `n` more symbols, those at the places `errs` in error, at a time in ns; the errors of the last `window` symbols are kept. -/
def SymbolCount.take (c : SymbolCount) (window n : Nat) (errs : List Nat) (ns : Nat) : SymbolCount :=
  { total := c.total + n
    errs := (c.errs ++ errs.map (c.total + ·)).filter fun e => c.total + n ≤ e + window
    marks := (c.marks.filter fun m => ns ≤ m.1 + 100000000) ++ [(ns, c.total)] }

/-- A lane has carried `n` more FEC symbols, those at `errs` in error. -/
def fecTake (s : State) (key n : Nat) (errs : List Nat) : State :=
  { s with opt := { s.opt with
      fec := SMap.set (fun _ => {}) s.opt.fec key ((SMap.get (fun _ => {}) s.opt.fec key).take (2 ^ 24) n errs s.ns) } }

/-- `n` coded symbols, of a stream of which `first` came before, are attributed to the lanes that carried them, in the counts that
begin at `bases`: in error are those that the decoder corrected and those that `also` names by lane (R250, R319). -/
def tallyLanes (s : State) (bases lanes : List Nat) (first n : Nat) (fixed : List Nat) (also : Nat → List Nat) : State :=
  (lanes.zipIdx).foldl (fun s p =>
    let mine := (List.range n).filter fun k => (first + k) / 2 % lanes.length = p.2
    let errs := (List.range mine.length).filter fun i =>
      fixed.contains ((mine[i]?).getD n) || (also p.1).contains i
    bases.foldl (fun s b => fecTake s (b + p.1) mine.length errs) s) s

/-- The counts of a transmitting port's lanes follow those of 132 receiving ports (R291). -/
def sourceBase (p : Nat) : Nat := 18 * (132 + p)

/-- Symbols of the last 100 ms. -/
def SymbolCount.recent (c : SymbolCount) (ns : Nat) : Nat :=
  match c.marks.find? fun m => ns ≤ m.1 + 100000000 with
  | some m => c.total - m.2
  | none => 0

end Sys2Proof.Machine
end

