-- ==== Sys2Proof/Machine/Operands.lean ====
section
/-! DEFINITION. Figures and operand descriptors (R115 to R125, R131, R188, R189): their fields, the checks of a launch with
the FIGERR code each failure gives, and how packed elements are read and written. Log entry 12 gives the order of the
checks where several fail. -/
namespace Sys2Proof.Machine

/-! ### The figure (R115) -/

def figWord (f : List Byte) (i : Nat) : Nat := fieldAt f (4 * i) 4
def bits (v hi lo : Nat) : Nat := v / 2 ^ lo % 2 ^ (hi - lo + 1)
def figOp (f : List Byte) : Nat := bits (figWord f 0) 7 0
def figCtx (f : List Byte) : Nat := bits (figWord f 0) 13 8
def figHeat (f : List Byte) : Fin 8 := Fin.ofNat 8 (bits (figWord f 0) 16 14)
def figCmp (f : List Byte) : Bool := bits (figWord f 0) 17 17 = 1
def figWaitEn (f : List Byte) : Bool := bits (figWord f 0) 18 18 = 1
def figSigEn (f : List Byte) : Bool := bits (figWord f 0) 19 19 = 1
def figReanchor (f : List Byte) : Bool := bits (figWord f 0) 20 20 = 1
def figOperator (f : List Byte) : Nat := bits (figWord f 1) 31 16
def figLayer (f : List Byte) : Nat := bits (figWord f 1) 15 0
def figWaitThr (f : List Byte) : BitVec 20 := BitVec.ofNat 20 (bits (figWord f 2) 31 12)
def figWaitIdx (f : List Byte) : ObjId := Fin.ofNat 4096 (bits (figWord f 2) 11 0)
def figSigRmt (f : List Byte) : Bool := bits (figWord f 3) 23 23 = 1
def figSigMod (f : List Byte) : ModId := Fin.ofNat 8 (bits (figWord f 3) 22 20)
def figSigInc (f : List Byte) : BitVec 8 := BitVec.ofNat 8 (bits (figWord f 3) 19 12)
def figSigIdx (f : List Byte) : ObjId := Fin.ofNat 4096 (bits (figWord f 3) 11 0)
def figOffset (f : List Byte) : Nat := bits (figWord f 4) 23 0
def figDp (f : List Byte) (i : Nat) : Nat := figWord f (5 + i)

/-- The 48-bit tag of an anchor-cell message: step counter [15:0], layer ID, operator ID (R51). -/
def cellTag (f : List Byte) (step : BitVec 64) : BitVec 48 :=
  BitVec.ofNat 48 (step.toNat % 65536 + figLayer f * 65536 + figOperator f * 2 ^ 32)

/-- A single HALT, which a Caller without a table runs (R158). -/
def haltFigure (c : CtxId) : List Byte := padTo 32 (leBytes 4 (0x0A + c.val * 256))

/-! ### SRAM windows (R87, R111) -/

/-- A range lies wholly inside the window a TD_CTXWIN value gives. -/
def inWindow (win : Word) (a n : Nat) : Bool :=
  win.getLsbD 15 && getF win 10 0 ≤ getF win 26 16 &&
    getF win 10 0 * 65536 ≤ a && a + n ≤ (getF win 26 16 + 1) * 65536

/-! ### Checks of the figure itself (R116) -/

/-- Reserved bits and pointers of a figure by class (R115, R131). -/
def figReservedBad (f : List Byte) : Bool :=
  let ptrBad (v : Nat) := bits v 31 27 ≠ 0 || bits v 5 0 ≠ 0
  bits (figWord f 0) 31 21 ≠ 0 || bits (figWord f 3) 31 24 ≠ 0 || bits (figWord f 4) 31 24 ≠ 0 ||
  (if figOp f ≤ 6 then ptrBad (figDp f 0) || figDp f 1 ≠ 0 || figDp f 2 ≠ 0
   else if figOp f = 9 then bits (figDp f 0) 31 24 ≠ 0 || bits (figDp f 2) 31 2 ≠ 0
   else figDp f 0 ≠ 0 || figDp f 1 ≠ 0 || figDp f 2 ≠ 0)

/-- FIGERR 1 to 3 of a figure (R116, R117, R159). -/
def checkFigure (f : List Byte) (c : CtxId) : Option (Fin 16) :=
  if figOp f = 0 ∨ figOp f > 0x0A then some 1
  else if figCtx f ≠ c.val then some 2
  else if figReservedBad f then some 3
  else none

/-! ### Packed elements (R42, R44, R119) -/

/-- Bytes that `n` elements of a format occupy. -/
def packedBytes (f : Fmt) (n : Nat) : Nat := (n * f.width + 7) / 8

/-- Encoding of element `i` of an array at SRAM address `base`. -/
def elemAt (s : State) (d : DieId) (f : Fmt) (base i : Nat) : Nat :=
  leNat (s.bytes (sramPa d (base + i * f.width / 8)) 4) / 2 ^ (i * f.width % 8) % 2 ^ f.width

/-- A BF16 or FP32 element widened to FP32 (R62). -/
def floatAt (s : State) (d : DieId) (f : Fmt) (base i : Nat) : Word :=
  match f with
  | .bf16 => widenBf16 (BitVec.ofNat 16 (elemAt s d .bf16 base i))
  | _ => BitVec.ofNat 32 (elemAt s d .fp32 base i)

/-- Elements packed into bytes, little-endian. -/
def packElems (f : Fmt) (es : List Nat) : List Byte :=
  leBytes (packedBytes f es.length) (es.foldr (fun e acc => acc * 2 ^ f.width + e) 0)

/-- An FP32-layout value as an element of the output format: BF16 is the upper half (R44). -/
def outElem (f : Fmt) (v : Word) : Nat := match f with | .bf16 => v.toNat / 65536 | _ => v.toNat

/-! ### Descriptor fields -/

def dRange (bs : List Byte) (lo hi : Nat) : Bool := (bs.drop lo).take (hi - lo + 1) |>.any (· ≠ 0)
def sramAddrBad (v : Nat) : Bool := v ≥ 2 ^ 27
def misaligned (v : Nat) : Bool := v % 128 ≠ 0

/-! ### MATMUL (R74, R120) -/

structure MatDesc where
  aAddr : Nat
  aScale : Nat
  wAddr : Nat
  wScale : Nat
  out : Nat
  m : Nat
  k : Nat
  n : Nat
  units : Nat
  ksplit : Nat
  aFmt : Nat
  wFmt : Nat
  acc : Nat
  rnd : Nat
  bf16 : Bool
  outMode : Nat
  cell : Nat
  parts : Nat
  tensor : Nat
  expPartials : Nat
  cellMod : Nat
  entry : Nat
deriving DecidableEq, Repr

def ksplitCode : Nat → Nat
  | 0 => 1 | 1 => 2 | 2 => 3 | 3 => 4 | 4 => 6 | 5 => 8 | 6 => 12 | _ => 24

def matDesc (b : List Byte) : MatDesc where
  aAddr := fieldAt b 0 4
  aScale := fieldAt b 4 4
  wAddr := fieldAt b 8 4
  wScale := fieldAt b 12 4
  out := fieldAt b 16 4
  m := fieldAt b 20 2 + 1
  k := bits (fieldAt b 24 4) 24 0
  n := bits (fieldAt b 28 4) 19 0 + 1
  units := bits (fieldAt b 32 4) 23 0
  ksplit := ksplitCode (bits (fieldAt b 32 4) 26 24)
  aFmt := fieldAt b 36 1 % 16
  wFmt := fieldAt b 36 1 / 16
  acc := bits (fieldAt b 37 1) 1 0
  rnd := bits (fieldAt b 37 1) 3 2
  bf16 := bits (fieldAt b 37 1) 4 4 = 1
  outMode := bits (fieldAt b 37 1) 6 5
  cell := fieldAt b 38 1
  parts := fieldAt b 39 1
  tensor := fieldAt b 40 4
  expPartials := fieldAt b 44 1
  cellMod := fieldAt b 45 1 % 8
  entry := fieldAt b 46 2

/-- Number of ones of a mask. -/
def ones (w n : Nat) : Nat := ((List.range n).filter fun i => w.testBit i).length

/-- Operands of a MATMUL are BF16 (R119). -/
def MatDesc.isBf16 (m : MatDesc) : Bool := m.aFmt = 6

/-- FIGERR of a matrix descriptor (R116, R118, R120, R74). -/
def checkMat (b : List Byte) : Option (Fin 16) :=
  let m := matDesc b
  let addrs := [m.aAddr, m.aScale, m.wAddr, m.wScale, m.out]
  if addrs.any sramAddrBad || fieldAt b 22 2 ≠ 0 || bits (fieldAt b 24 4) 31 25 ≠ 0 || bits (fieldAt b 28 4) 31 20 ≠ 0 ||
     bits (fieldAt b 32 4) 31 27 ≠ 0 || bits (fieldAt b 37 1) 7 7 ≠ 0 || fieldAt b 45 1 / 8 ≠ 0 || dRange b 48 63 ||
     (m.isBf16 && (m.aScale ≠ 0 || m.wScale ≠ 0)) || (m.outMode = 1 && (m.out ≠ 0 || m.expPartials ≠ 0)) ||
     (m.outMode = 0 && m.entry ≠ 0) then some 3
  else if misaligned m.aAddr || misaligned m.wAddr || (m.outMode = 0 && misaligned m.out) ||
     m.units = 0 || ones m.units 24 % m.ksplit ≠ 0 || m.acc ≥ 2 || m.rnd = 3 || m.outMode ≥ 2 || m.parts = 0 ||
     m.expPartials = 255 || !((m.aFmt ≤ 5 && m.wFmt ≤ 5) || (m.aFmt = 6 && m.wFmt = 6)) ||
     m.k % (if m.isBf16 then 8 else 32) ≠ 0 || m.k > 2 ^ 24 || (m.outMode = 1 && (m.entry = 0 || m.entry > 4095)) then some 4
  else none

def MatDesc.fmts (m : MatDesc) : Fmt × Fmt := ((Fmt.ofCode m.aFmt).getD .bf16, (Fmt.ofCode m.wFmt).getD .bf16)

/-- Operand ranges that a MATMUL reads, and the output range it writes. -/
def MatDesc.reads (m : MatDesc) : List (Nat × Nat) :=
  let (fa, fw) := m.fmts
  if m.k = 0 then []
  else [(m.aAddr, packedBytes fa (m.m * m.k)), (m.wAddr, packedBytes fw (m.n * m.k))] ++
    (if m.isBf16 then [] else [(m.aScale, m.m * (m.k / 32)), (m.wScale, m.n * (m.k / 32))])
def MatDesc.outFmt (m : MatDesc) : Fmt := if m.bf16 then .bf16 else .fp32
def MatDesc.writes (m : MatDesc) : List (Nat × Nat) :=
  if m.outMode = 0 then [(m.out, packedBytes m.outFmt (m.m * m.n))] else []

/-! ### VECMAP (R78, R123) -/

structure VecDesc where
  a : Nat
  b : Nat
  c : Nat
  out : Nat
  len : Nat
  op : Nat
  inFmt : Nat
  outFmt : Nat
  qfmt : Nat
  qrnd : Nat
  vus : Nat
  scale : Nat
  tensor : Nat
  row : Nat
  cell : Nat
  parts : Nat
  expPartials : Nat
  cellMod : Nat
  entry : Nat
deriving DecidableEq, Repr

def vecDesc (b : List Byte) : VecDesc where
  a := fieldAt b 0 4
  b := fieldAt b 4 4
  c := fieldAt b 8 4
  out := fieldAt b 12 4
  len := bits (fieldAt b 16 4) 24 0
  op := fieldAt b 20 1
  inFmt := fieldAt b 21 1 % 16
  outFmt := fieldAt b 21 1 / 16
  qfmt := fieldAt b 22 1 % 16
  qrnd := bits (fieldAt b 22 1) 5 4
  vus := fieldAt b 23 1
  scale := fieldAt b 24 4
  tensor := fieldAt b 28 4
  row := bits (fieldAt b 32 4) 24 0
  cell := fieldAt b 36 1
  parts := fieldAt b 37 1
  expPartials := fieldAt b 38 1
  cellMod := fieldAt b 39 1 % 8
  entry := fieldAt b 40 2

/-- The operations of R123. -/
def vecOps : List Nat :=
  [1, 2, 3, 4, 5, 6, 7, 8, 9, 10, 11, 12, 13, 14] ++ [0x10, 0x11, 0x12, 0x13, 0x14, 0x18, 0x19]

def VecDesc.usesB (v : VecDesc) : Bool := v.op ≤ 6
def VecDesc.usesC (v : VecDesc) : Bool := v.op = 4 || v.op = 0x18 || v.op = 0x19
def VecDesc.isQuant (v : VecDesc) : Bool := v.op = 0x10
def VecDesc.isDequant (v : VecDesc) : Bool := v.op = 0x11
def VecDesc.isRow (v : VecDesc) : Bool := v.op = 0x12 || v.op = 0x13 || v.op = 0x14
def VecDesc.isGather (v : VecDesc) : Bool := v.op = 0x18 || v.op = 0x19
/-- A SUMX that sends its wide partial to another die and writes nothing (R81). -/
def VecDesc.sends (v : VecDesc) : Bool := v.op = 0x13 && v.entry ≠ 0

/-- FIGERR of a vector descriptor (R79 to R81, R116, R118, R123). -/
def checkVec (b : List Byte) : Option (Fin 16) :=
  let v := vecDesc b
  let isFloat (f : Nat) := f = 6 || f = 7
  let mx := v.isQuant || v.isDequant
  if [v.a, v.b, v.c, v.out, v.scale].any sramAddrBad || bits (fieldAt b 16 4) 31 25 ≠ 0 || bits (fieldAt b 22 1) 7 6 ≠ 0 ||
     bits (fieldAt b 32 4) 31 25 ≠ 0 || fieldAt b 39 1 / 8 ≠ 0 || dRange b 42 63 ||
     (!v.usesB && v.b ≠ 0) || (!v.usesC && v.c ≠ 0) || (!mx && v.scale ≠ 0) || (v.sends && (v.out ≠ 0 || v.expPartials ≠ 0))
    then some 3
  else if !vecOps.contains v.op || v.len = 0 || v.len > 2 ^ 24 || v.vus = 0 || misaligned v.a || misaligned v.b ||
     misaligned v.c || misaligned v.out || v.parts = 0 || (v.parts > 1 && v.op ≠ 0x12 && v.op ≠ 0x13) ||
     (!mx && v.qfmt ≠ 0) || (!v.isQuant && v.qrnd ≠ 0) || v.qrnd ≥ 2 || (!v.isRow && !v.isGather && v.row ≠ 0) ||
     ((v.expPartials ≠ 0 || v.entry ≠ 0) && v.op ≠ 0x13) || v.expPartials = 255 || v.entry > 4095 ||
     (mx && (v.qfmt > 5 || v.len % 32 ≠ 0)) || (v.isQuant && !isFloat v.inFmt) || (v.isDequant && !isFloat v.outFmt) ||
     (v.isRow && (v.inFmt ≠ 7 || !(v.outFmt = 7 || (v.op = 0x13 && v.outFmt = 6)) || v.row = 0 || v.len % v.row ≠ 0 ||
       (v.parts ≥ 2 && v.len ≠ v.row))) ||
     (v.isGather && (!(isFloat v.inFmt || v.inFmt = 8) || v.outFmt ≠ v.inFmt || v.row = 0 || v.row > 2 ^ 24)) ||
     (!mx && !v.isRow && !v.isGather && (!isFloat v.inFmt || !isFloat v.outFmt)) ||
     (v.op = 8 && v.inFmt = v.outFmt) then some 4
  else none

def VecDesc.fin (v : VecDesc) : Fmt := (Fmt.ofCode v.inFmt).getD .fp32
def VecDesc.fout (v : VecDesc) : Fmt := (Fmt.ofCode v.outFmt).getD .fp32
def VecDesc.fq (v : VecDesc) : Fmt := (Fmt.ofCode v.qfmt).getD .int8

/-- Number of output elements of a vector operation. -/
def VecDesc.outLen (v : VecDesc) : Nat :=
  if v.op = 0x12 ∨ v.op = 0x13 then v.len / v.row else if v.op = 0x19 then v.row else v.len

def VecDesc.reads (v : VecDesc) : List (Nat × Nat) :=
  let n := v.len
  (if v.isDequant then [(v.a, packedBytes v.fq n), (v.scale, n / 32)]
   else if v.op = 0x18 then [(v.a, packedBytes v.fin v.row)] else [(v.a, packedBytes v.fin n)]) ++
  (if v.usesB then [(v.b, packedBytes v.fin n)] else []) ++
  (if v.isGather then [(v.c, 4 * n)] else if v.usesC then [(v.c, packedBytes v.fin n)] else [])
def VecDesc.writes (v : VecDesc) : List (Nat × Nat) :=
  if v.sends then []
  else if v.isQuant then [(v.out, packedBytes v.fq v.len), (v.scale, v.len / 32)]
  else [(v.out, packedBytes v.fout v.outLen)]

/-! ### SAMPLE (R93, R124) -/

structure SampDesc where
  inp : Nat
  count : Nat
  final : Bool
  lists : Bool
  entropy : Bool
  ret : Bool
  lfmt : Nat
  k : Nat
  topp : Nat
  base : Nat
  beta : Word
  out : Nat
  tensor : Nat
  row : Nat
deriving DecidableEq, Repr

def sampDesc (b : List Byte) : SampDesc where
  inp := fieldAt b 0 4
  count := bits (fieldAt b 4 4) 20 0
  final := bits (fieldAt b 8 1) 0 0 = 1
  lists := bits (fieldAt b 8 1) 1 1 = 1
  entropy := bits (fieldAt b 8 1) 2 2 = 1
  ret := bits (fieldAt b 8 1) 3 3 = 1
  lfmt := bits (fieldAt b 8 1) 7 4
  k := fieldAt b 9 1 + 1
  topp := fieldAt b 10 2
  base := fieldAt b 12 4
  beta := BitVec.ofNat 32 (fieldAt b 16 4)
  out := fieldAt b 20 4
  tensor := fieldAt b 24 4
  row := fieldAt b 28 4

def checkSamp (b : List Byte) : Option (Fin 16) :=
  let v := sampDesc b
  if sramAddrBad v.inp || sramAddrBad v.out || bits (fieldAt b 4 4) 31 21 ≠ 0 || dRange b 32 63 then some 3
  else if (v.lists && !v.final) || (v.ret && !v.final) || !(v.lfmt = 6 || v.lfmt = 7) || v.count = 0 ||
     v.count > (if v.lists then 64 else 2 ^ 20) || v.base ≥ 2 ^ 31 || fpIsNan v.beta || fpIsInf v.beta || fpIsZero v.beta ||
     fpNeg v.beta then some 4
  else none

def SampDesc.fmt (v : SampDesc) : Fmt := if v.lfmt = 6 then .bf16 else .fp32
def SampDesc.reads (v : SampDesc) : List (Nat × Nat) :=
  if v.lists then (List.range v.count).map fun i => (v.inp + 2048 * i, 8 * v.k) else [(v.inp, packedBytes v.fmt v.count)]
def SampDesc.writes (v : SampDesc) : List (Nat × Nat) := [(v.out, if v.final then 16 else 8 * v.k)]

/-! ### SEND (R125) -/

structure SendDesc where
  src : Nat
  len : Nat
  entry : Nat
  ports : Nat
deriving DecidableEq, Repr

def sendDesc (b : List Byte) : SendDesc where
  src := fieldAt b 0 4
  len := bits (fieldAt b 4 4) 21 0
  entry := fieldAt b 8 2
  ports := fieldAt b 10 1

def checkSend (b : List Byte) : Option (Fin 16) :=
  let v := sendDesc b
  if sramAddrBad v.src || bits (fieldAt b 4 4) 31 22 ≠ 0 || dRange b 11 63 then some 3
  else if misaligned v.src || v.len = 0 || v.len > 2097152 || v.entry = 0 || v.entry > 4095 || v.ports = 0 then some 4
  else none

/-! ### MOVE and STREAM (R188, R189) -/

structure XferDesc where
  elVa : Nat
  elSram : Nat
  rowBytes : Nat
  rows : Nat
  dir : Nat
  vaStride : Nat
  entry : Nat
  sramStride : Nat
  scVa : Nat
  scSram : Nat
  scBytes : Nat
deriving DecidableEq, Repr

def xferDesc (b : List Byte) : XferDesc where
  elVa := fieldAt b 0 6
  elSram := bits (fieldAt b 8 4) 26 0
  rowBytes := bits (fieldAt b 12 4) 26 0
  rows := fieldAt b 16 2 + 1
  dir := fieldAt b 18 1 % 4
  vaStride := fieldAt b 20 6
  entry := fieldAt b 26 2
  sramStride := bits (fieldAt b 28 4) 26 0
  scVa := fieldAt b 32 6
  scSram := bits (fieldAt b 40 4) 26 0
  scBytes := bits (fieldAt b 44 4) 26 0

/-- Bytes from the start of the first row to the end of the last, strides included. -/
def XferDesc.span (x : XferDesc) (stride : Nat) : Nat := (x.rows - 1) * stride + x.rowBytes

def checkXfer (b : List Byte) (stream : Bool) : Option (Fin 16) :=
  let x := xferDesc b
  if fieldAt b 6 2 ≠ 0 || bits (fieldAt b 8 4) 31 27 ≠ 0 || bits (fieldAt b 12 4) 31 27 ≠ 0 || fieldAt b 18 1 / 4 ≠ 0 ||
     fieldAt b 19 1 ≠ 0 || bits (fieldAt b 28 4) 31 27 ≠ 0 || fieldAt b 38 2 ≠ 0 || bits (fieldAt b 40 4) 31 27 ≠ 0 ||
     bits (fieldAt b 44 4) 31 27 ≠ 0 || dRange b 48 63 || (x.dir = 2 && (x.elVa ≥ 2 ^ 27 || x.entry ≠ 0)) ||
     (x.rows = 1 && (x.vaStride ≠ 0 || x.sramStride ≠ 0)) || (!stream && x.scBytes ≠ 0) ||
     (x.scBytes = 0 && (x.scVa ≠ 0 || x.scSram ≠ 0)) then some 3
  else if misaligned x.elVa || misaligned x.elSram || x.rowBytes = 0 || misaligned x.rowBytes || x.dir = 3 ||
     (stream && x.dir ≠ 0) || misaligned x.vaStride || misaligned x.sramStride || misaligned x.scVa || misaligned x.scSram ||
     misaligned x.scBytes || x.entry > 4095 ||
     (x.dir = 2 && x.elVa < x.elSram + x.span x.sramStride && x.elSram < x.elVa + x.span x.vaStride) then some 4
  else none

/-- A part of a figure's data before cutting: virtual (or source SRAM) start, SRAM start, length, scale part or not. -/
structure Part where
  va : Nat
  sram : Nat
  len : Nat
  scale : Bool
deriving DecidableEq, Repr

/-- A contiguous run cut at 2 MiB boundaries of its VA (R189); `fuel` bounds the pieces. -/
def cutPages : Nat → Part → List Part
  | 0, _ => []
  | fuel + 1, p =>
    if p.len = 0 then []
    else
      let room := 0x200000 - p.va % 0x200000
      if p.len ≤ room then [p]
      else { p with len := room } :: cutPages fuel { p with va := p.va + room, sram := p.sram + room, len := p.len - room }

/-- The segments of a transfer in ascending index (R189). -/
def segments (x : XferDesc) : List Part :=
  let cut (p : Part) := cutPages (p.len / 0x200000 + 2) p
  cut ⟨x.scVa, x.scSram, x.scBytes, true⟩ ++
    (List.range x.rows).flatMap fun r =>
      cut ⟨(x.elVa + r * x.vaStride) % 2 ^ 48, (x.elSram + r * x.sramStride) % 2 ^ 27, x.rowBytes, false⟩

/-- SRAM ranges that a transfer touches: for a STREAM, the two ranges of R87; for a MOVE, its rows. -/
def XferDesc.ranges (x : XferDesc) (stream : Bool) : List (Nat × Nat) :=
  if stream then
    (if x.scBytes = 0 then [] else [(x.scSram, x.scBytes)]) ++ [(x.elSram, x.span x.sramStride)]
  else
    (List.range x.rows).flatMap fun r =>
      (x.elSram + r * x.sramStride, x.rowBytes) :: (if x.dir = 2 then [(x.elVa + r * x.vaStride, x.rowBytes)] else [])

/-! ### SKIP_IF (R131, R136) -/

/-- A wait of threshold `t` on a value `x` is satisfied, in WRAP or SAT mode (R136). -/
def waitMet (sat : Bool) (x t : BitVec 20) : Bool :=
  if sat then t.toNat ≤ x.toNat else (x - t).toNat < 2 ^ 19

end Sys2Proof.Machine
end

