-- ==== Sys2Proof/Machine/DebugOps.lean ====
section
/-! DEFINITION. Counters, figure sets, reel records and progress (R523 to R535), as every launch and acknowledgement uses
them. -/
namespace Sys2Proof.Machine

/-- Counter numbers of R546. -/
def cntMu : Nat := 0
def cntVu : Nat := 1
def cntStream : Nat := 2
def cntReplay : Nat := 3
def cntCorr : Nat := 4
def cntBeats : Nat := 5

/-- A die's 64-bit counter `j` counts `n`, wrapping (R527). -/
def dieCount (s : State) (d j n : Nat) : State := s.wr64 (aDbgDcnt d j 0) (s.rd64 (aDbgDcnt d j 0) + BitVec.ofNat 64 n)

/-- A context's counter on a die (R527). -/
def ctxCount (s : State) (c d j n : Nat) : State :=
  s.wr64 (aDbgCtxcnt c d j 0) (s.rd64 (aDbgCtxcnt c d j 0) + BitVec.ofNat 64 n)

/-- A running figure's counter, saturating at 32 bits (R527): word `w` of CUR. -/
def curCount (s : State) (d k w n : Nat) : State := s.count (aDbgSetTag d k 0 + 4 * w) 31 0 n

/-- An event of a running figure counts at all three levels (R523). -/
def figCount (s : State) (d : DieId) (k : CallerId) (c : CtxId) (j n : Nat) : State :=
  ctxCount (dieCount (curCount s d k (2 + j) n) d j n) c d j n

/-- Eight words copied from one figure set to another. -/
def copySet (s : State) (d k src dst : Nat) : State :=
  (List.range 8).foldl (fun s i => s.wr (aDbgSetTag d k dst + 4 * i) (s.rd (aDbgSetTag d k src + 4 * i))) s

def clearSet (s : State) (d k set : Nat) : State :=
  (List.range 8).foldl (fun s i => s.wr (aDbgSetTag d k set + 4 * i) 0) s

/-- CUR moves to LAST and takes the tag of the figure that launches (R525). -/
def newInterval (s : State) (d : DieId) (k : CallerId) (c : CtxId) (f : List Byte) (pc : BitVec 24) : State :=
  let s₁ := clearSet (copySet s d k 0 1) d k 0
  ((s₁.wr (aDbgSetTag d k 0) (BitVec.ofNat 32 (figOperator f * 65536 + figLayer f))).wr (aDbgSetInfo d k 0)
    (BitVec.ofNat 32 (2 ^ 31 + c.val * 2 ^ 24 + pc.toNat))).wr (aDbgSetBeat d k 0) (s.beat.truncate 32)

/-- A switch at a boundary moves CUR to LAST and marks it PART (R525). -/
def partInterval (s : State) (d : DieId) (k : CallerId) : State :=
  let s₁ := copySet s d k 0 1
  clearSet (if s.bit (aDbgSetInfo d k 0) 31 then s₁.setBit (aDbgSetInfo d k 1) 30 true else s₁) d k 0

/-! ### The reel -/

def State.reel (s : State) (d : DieId) : Reel := SMap.get (fun _ => {}) s.dbg.reels d.val
def State.setReel (s : State) (d : DieId) (r : Reel) : State :=
  { s with dbg := { s.dbg with reels := SMap.set (fun _ => {}) s.dbg.reels d.val r } }

/-- Base of a die's ring in its SRAM (R529). -/
def reelBase : Nat := 0x7F00000

/-- Kinds of R530. -/
def recIssue : Nat := 1
def recComplete : Nat := 2
def recSkip : Nat := 3
def recHeld : Nat := 4
def recGap : Nat := 5
def recBeatHi : Nat := 6

/-- A record of R530. -/
def reelRecord (beat : BitVec 64) (kind k c pc op layer operator : Nat) : List Byte :=
  leBytes 6 beat.toNat ++ [BitVec.ofNat 8 (kind + k * 16), BitVec.ofNat 8 c] ++ leBytes 3 pc ++ [BitVec.ofNat 8 op] ++
    leBytes 2 layer ++ leBytes 2 operator

/-- One record enters the ring buffer at NEXT, which advances (R531, R532): whether it did, and the state. In STOP mode
the ring takes 65,536 records; after a trigger in TRIGGER mode, POST further ones. -/
def reelPut (s : State) (d : DieId) (r : List Byte) : State :=
  let q := s.reel d
  let next := s.fld (aDbgReelptr d) 15 0
  let s₁ := s.setReel d { q with buf := q.buf ++ [(next, r)], total := q.total + 1 }
  let s₂ := s₁.setFld (aDbgReelptr d) 15 0 (next + 1)
  let s₃ := if next + 1 = 65536 then s₂.setBit (aDbgReelptr d) 31 true else s₂
  match s.fld (aDbgReelctl d) 29 28, q.post with
  | 1, _ => if q.total + 1 ≥ 65536 then s₃.setBit (aDbgReelctl d) 27 true else s₃
  | 2, some n =>
    if n ≤ 1 then (s₃.setReel d { s₃.reel d with post := none }).setBit (aDbgReelctl d) 27 true
    else s₃.setReel d { s₃.reel d with post := some (n - 1) }
  | _, _ => s₃

/-- A line of eight ring places: the buffered records, EMPTY elsewhere (R531). -/
def reelLine (s : State) (d : DieId) (line : Nat) : List Byte :=
  (List.range 8).flatMap fun i =>
    match (s.reel d).buf.find? fun e => e.1 = 8 * line + i with
    | some e => e.2
    | none => List.replicate 16 0

/-- A line goes to SRAM and, with EXPORT set, to the hub's buffer of 64 KiB (R531, R534). Records whose line is complete
leave the buffer; with `all`, an incomplete line is written too and its records stay to be written again. -/
def reelWriteLine (s : State) (d : DieId) (line : Nat) : State :=
  let data := reelLine s d line
  let pa := sramPa d (reelBase + 128 * line)
  let s₁ := (s.write pa data).mainPort pa data.length
  let s₂ := if (s.reel d).buf.any fun e => e.1 = 8 * line + 7 then
      s₁.setReel d { s₁.reel d with buf := (s₁.reel d).buf.filter fun e => e.1 / 8 ≠ line }
    else s₁
  if !s.bit (aDbgReelctl d) 30 then s₂
  else if !hostUp s || s.dbg.exportBuf.length ≥ 512 then
    { s₂ with dbg := { s₂.dbg with
        exportDrop := SMap.set (fun _ => 0) s₂.dbg.exportDrop d.val (SMap.get (fun _ => 0) s₂.dbg.exportDrop d.val + 1) } }.count
      aDbgExpstat 31 16 1
  else { s₂ with dbg := { s₂.dbg with exportBuf := s₂.dbg.exportBuf ++ [{ die := d, idx := 8 * line, data := data }] } }

/-- Lines of the buffered records, oldest first. -/
def reelLines (r : Reel) : List Nat := (r.buf.map fun e => e.1 / 8).eraseDups

/-- Every buffered record written out (R531, R532). -/
def reelFlush (s : State) (d : DieId) : State := (reelLines (s.reel d)).foldl (fun s l => reelWriteLine s d l) s

/-- A record meets the trigger's conditions (R533). -/
def triggers (s : State) (d : DieId) (kind k c layer operator : Nat) : Bool :=
  let g1 := s.rd (aDbgTrigcfg1 d)
  let g0 := s.rd (aDbgTrigcfg0 d)
  kind ≥ 1 && kind ≤ 4 && g1.getLsbD kind && g1.getLsbD (18 + k) &&
    (!g1.getLsbD 30 || getF g0 31 16 = operator) && (!g1.getLsbD 29 || getF g0 15 0 = layer) &&
    (!g1.getLsbD 28 || getF g1 27 22 = c)

/-- The first trigger while VALID is 0 captures the record (R533, R548); in TRIGGER mode it starts the post count. -/
def triggerAt (s : State) (d : DieId) (beat : BitVec 64) (kind k c pc op layer operator idx : Nat) (written : Bool) : State :=
  if s.bit (aDbgTrigcap2 d) 31 then s
  else
    let s₁ := s.wr64 (aDbgTrigcap0 d) beat
    let s₂ := s₁.capture (aDbgTrigcap2 d)
      (BitVec.ofNat 32 (2 ^ 31 + (if written then 2 ^ 30 else 0) + kind * 2 ^ 24 + k * 2 ^ 22 + c * 2 ^ 16 + idx))
    let s₃ := (s₂.wr (aDbgTrigcap3 d) (BitVec.ofNat 32 (operator * 65536 + layer))).wr (aDbgTrigcap4 d)
      (BitVec.ofNat 32 (op * 2 ^ 24 + pc))
    if s.bit (aDbgReelctl d) 31 && s.fld (aDbgReelctl d) 29 28 = 2 && !s.bit (aDbgReelctl d) 26 then
      let s₄ := s₃.setBit (aDbgReelctl d) 26 true
      let post := s.fld (aDbgReelctl d) 15 0
      if post = 0 then s₄.setBit (aDbgReelctl d) 27 true
      else s₄.setReel d { s₄.reel d with post := some post }
    else s₃

/-- A reel that has just stopped writes out its buffer (R532): `s₁` follows `s`. -/
def reelSettle (s s₁ : State) (d : DieId) : State :=
  if s₁.bit (aDbgReelctl d) 27 && !s.bit (aDbgReelctl d) 27 then reelFlush s₁ d else s₁

/-- The reel takes records: EN is 1 and it has not stopped. -/
def reelOn (s : State) (d : DieId) : Bool := s.bit (aDbgReelctl d) 31 && !s.bit (aDbgReelctl d) 27

/-- All 64 places of the buffer are taken. -/
def reelFull (s : State) (d : DieId) : Bool := decide (64 ≤ (s.reel d).buf.length)

/-- BEATHI goes ahead of a record whose upper beat bits differ from the previous record's (R530). -/
def reelHi (s : State) (d : DieId) (beat : BitVec 64) : State :=
  let hi : BitVec 16 := (beat >>> 48).truncate 16
  if (s.reel d).hi = some hi ∨ reelFull s d then s
  else reelPut (s.setReel d { s.reel d with hi := some hi }) d
    (leBytes 6 beat.toNat ++ [BitVec.ofNat 8 recBeatHi, 0] ++ leBytes 2 hi.toNat ++ leBytes 6 0)

/-- After drops, GAP takes the next place that is free (R531). -/
def reelGap (s : State) (d : DieId) : State :=
  let q := s.reel d
  if q.dropped = 0 || !reelOn s d then s
  else
    let s₁ := reelHi s d q.dropBeat
    if reelFull s₁ d || !reelOn s₁ d then s₁
    else reelPut (s₁.setReel d { s₁.reel d with dropped := 0 }) d
      (leBytes 6 q.dropBeat.toNat ++ [BitVec.ofNat 8 recGap, 0] ++ leBytes 4 q.dropped ++ leBytes 4 0)

/-- Caller of a record. -/
def recCaller (r : List Byte) : Nat := fieldAt r 6 1 / 16 % 4

/-- A record `x` of the beat of a later Caller than `r`'s. -/
def recAfter (r x : List Byte) : Bool :=
  x.take 6 = r.take 6 && decide (fieldAt x 6 1 % 16 ≤ recHeld) && decide (recCaller r < recCaller x)

/-- The newest record moves ahead of those of later Callers of its beat, and a capture of this beat with the records (R530). -/
def reelOrder (s : State) (d : DieId) (beat : BitVec 64) : State :=
  let q := s.reel d
  match q.buf.reverse with
  | [] => s
  | x :: earlier =>
    let passed := (earlier.takeWhile fun e => recAfter x.2 e.2).reverse
    if passed = [] then s
    else
      let places := passed.map (·.1) ++ [x.1]
      let sorted := places.zip (x.2 :: passed.map (·.2))
      let s₁ := s.setReel d { q with buf := (earlier.drop passed.length).reverse ++ sorted }
      let idx := s.fld (aDbgTrigcap2 d) 15 0
      if s.fld (aDbgTrigcap2 d) 31 30 = 3 && s.rd64 (aDbgTrigcap0 d) = beat && places.contains idx then
        s₁.setFld (aDbgTrigcap2 d) 15 0 (if idx = x.1 then places.headD 0 else (places.dropWhile (· ≠ idx)).getD 1 0)
      else s₁

/-- One event of a Caller for the reel and the trigger (R530 to R533). The reel takes it after a GAP for records dropped and a
BEATHI where the upper beat bits differ; a full buffer drops it. The triggering record is written, then POST further ones. -/
def reelTake (s : State) (d : DieId) (kind : Nat) (k : CallerId) (c : CtxId) (pc op layer operator : Nat) : State :=
  let beat := s.beat - BitVec.ofNat 64 s.lag
  let hit := triggers s d kind k c layer operator
  let s₁ := if reelOn s d then reelGap s d else s
  let s₂ := if reelOn s₁ d then reelHi s₁ d beat else s₁
  let q := s₂.reel d
  let idx := s₂.fld (aDbgReelptr d) 15 0
  let note (s : State) (written : Bool) : State :=
    if hit then triggerAt s d beat kind k c pc op layer operator idx written else s
  if !reelOn s₂ d then note s₂ false
  else if reelFull s₂ d then
    note ((s₂.setReel d
      { q with
        dropped := q.dropped + 1
        dropBeat := if q.dropped = 0 then beat else q.dropBeat }).count (aDbgReeldrop d) 31 0 1) false
  else
    let s₃ := note s₂ true
    let s₄ := s₃.setReel d
      { s₃.reel d with post := (s₃.reel d).post.map (· + if hit && !s₂.bit (aDbgReelctl d) 26 then 1 else 0) }
    reelOrder (reelPut s₄ d (reelRecord beat kind k c pc op layer operator)) d beat

/-- The event at the reel, which writes out its buffer when it stops. -/
def reelEvent (s : State) (d : DieId) (kind : Nat) (k : CallerId) (c : CtxId) (pc op layer operator : Nat) : State :=
  reelSettle s (reelTake s d kind k c pc op layer operator) d

/-! ### Progress (R535) -/

/-- A Caller makes progress: its count of beats starts again and its watchdog is armed. -/
def progress (s : State) (d : DieId) (k : CallerId) : State :=
  { s with dbg := { s.dbg with
      idleBeats := SMap.set (fun _ => 0) s.dbg.idleBeats (callerNo d k) 0
      expired := s.dbg.expired.filter (· ≠ callerNo d k) } }

/-! ### Holding (R151) -/

/-- The context becomes HELD if it is running or waits to run, and the host is told. -/
def contextHeld (s : State) (d : DieId) (k : CallerId) (c : CtxId) (e : Fin 16) : State :=
  if ctxState s c = ctxRunning ∨ ctxState s c = ctxReady then notifyHeld (setCtxState s c ctxHeld) d k c e
  else s

/-- The figure a Caller is at: the running one, or the fetched one at its PC, if any. -/
def figureAt (s : State) (d : DieId) (k : CallerId) (c : CtxId) : List Byte :=
  let q := s.caller d k
  if q.ctx ≠ some c then []
  else match q.run with
    | some r => r.fig
    | none => ((q.fetched.find? fun x => x.1 = (s.cc d k c).pc).map (·.2)).getD []

/-- A Caller holds at its figure with an uncorrected-contained error (R151): it drops the figure, keeps its PC, the reel
takes a HELD record (R530), and the context becomes HELD. `e` is the FIGERR code, 0 for errors that have none. -/
def hold (s : State) (d : DieId) (k : CallerId) (c : CtxId) (e : Fin 16) : State :=
  let f := figureAt s d k c
  let s₁ := reelEvent s d recHeld k c (s.cc d k c).pc.toNat e.val (figLayer f) (figOperator f)
  let s₂ := s₁.setCc d k c { s₁.cc d k c with held := true, figerr := e, pend := none }
  let q := s₂.caller d k
  let s₃ := if q.ctx = some c then
      freeHeat (s₂.setCaller d k { q with st := .held, run := none, rel := false, stop := false }) d k
    else s₂
  contextHeld s₃ d k c e

/-- The event of a context's uncorrected-contained error on its die (R474, R477). -/
def ctxEvent (d : DieId) (k : CallerId) (c : CtxId) (event : BitVec 8) (detail : Nat) : FaultReport :=
  contained d.val event 1 (c.val + 64 * k.val) detail

/-- A figure refused or held with a FIGERR code: event 0x03 (R476). -/
def refuseFigure (s : State) (d : DieId) (k : CallerId) (c : CtxId) (e : Fin 16) : State :=
  (hold s d k c e).report (ctxEvent d k c 0x03 e.val)

end Sys2Proof.Machine
end

