-- ==== Sys2Proof/Machine/Sram.lean ====
section
/-! DEFINITION. Accesses to a die's SRAM made for a figure: the window check and SECDED outcomes of R87 and R88. -/
namespace Sys2Proof.Machine

/-- Master codes of TD_SRAMFIRST1 (R107). -/
def masterMatrix : Nat := 0
def masterVector : Nat := 1
def masterMover : Nat := 2
def masterFetch : Nat := 3
def masterSampling : Nat := 5

/-- Bank of an SRAM address (R82). -/
def sramBank (a : Nat) : Nat := (a / 128 % 64) ^^^ (a / 8192 % 64)

/-- A saturating pair of die counters counts corrected words, with one corrected event each (R88), and the figure's CORR
counters of the three levels (R523): the running figure's set, the context's and the die's. -/
def countCorr (s : State) (d : DieId) (k : CallerId) (c : CtxId) (n : Nat) : State :=
  if n = 0 then s
  else
    let s := (s.count (aDbgSetCorr d k 0) 31 0 n)
    let s := s.wr64 (aDbgDcnt d 4 0) (s.rd64 (aDbgDcnt d 4 0) + BitVec.ofNat 64 n)
    s.wr64 (aDbgCtxcnt c d 4 0) (s.rd64 (aDbgCtxcnt c d 4 0) + BitVec.ofNat 64 n)

/-- One corrected word of a die's SRAM: counted and reported (R88, R476). -/
def sramCorr (s : State) (d : DieId) (a : Nat) : State :=
  (s.count (aTdSramerr d) 31 16 1).report (corrected d.val 0x01 (sramBank a))

/-- A poisoned word met: counted, captured and reported (R88, R107). -/
def sramPoison (s : State) (d : DieId) (k : CallerId) (c : CtxId) (master a : Nat) : State :=
  let s₁ := s.count (aTdSramerr d) 15 0 1
  let s₂ := if s.bit (aTdSramfirst1 d) 31 then s₁
    else (s₁.wr (aTdSramfirst0 d) (BitVec.ofNat 32 (a / 8 * 8))).capture (aTdSramfirst1 d)
      (BitVec.ofNat 32 (2 ^ 31 + master * 2 ^ 28 + c.val * 2 ^ 22))
  s₂.report
    { ctxEvent d k c 0x02 master with
      space := 1, addr := BitVec.ofNat 48 (a / 8 * 8), master := BitVec.ofNat 4 master,
      access := if master = masterFetch then 2 else 0 }

/-- Correctable words of a run of SRAM bytes, as SRAM addresses. -/
def sramSingles (s : State) (d : DieId) (a n : Nat) : List Nat :=
  (s.ecc.filter fun e => n ≠ 0 && sramPa d a / 8 ≤ e.1 && e.1 ≤ lastWord (sramPa d a) n && e.2 = 1).map
    fun e => (e.1 * 8 - sramPa d 0)

/-- A main-port read of a range for a figure (R88): single-bit errors are corrected, counted and reported; the first
poisoned word fails the figure. Answers whether the read succeeded. -/
def sramRange (s : State) (d : DieId) (k : CallerId) (c : CtxId) (master a n : Nat) : State × Bool :=
  let singles := sramSingles s d a n
  let s₁ := countCorr (singles.foldl (fun s x => sramCorr s d x) (s.correct (sramPa d a) n)) d k c singles.length
  match (s.eccScan (sramPa d a) n).2 with
  | some w => (hold (sramPoison s₁ d k c master (w - sramPa d 0)) d k c 0, false)
  | none => (s₁, true)

/-- The same where a pattern is armed for the die's buses: the transfer's first word takes it, and SRAM keeps what it holds
(R88, R489). -/
def sramBus (s : State) (d : DieId) (k : CallerId) (c : CtxId) (master a n : Nat) : State × Bool :=
  if s.bit (aFltInj 1) 31 && s.fld (aFltInj 1) 23 16 = d.val && n ≠ 0 then
    let pa := sramPa d a
    let (s₁, ok) := sramRange (s.inject 1 d pa) d k c master a n
    (s₁.setEcc pa (s.eccAt pa), ok)
  else sramRange s d k c master a n

/-- Ranges read one after another. -/
def sramCheck (s : State) (d : DieId) (k : CallerId) (c : CtxId) (master : Nat) : List (Nat × Nat) → State × Bool
  | [] => (s, true)
  | (a, n) :: rs =>
    match sramBus s d k c master a n with
    | (s₁, true) => sramCheck s₁ d k c master rs
    | (s₁, false) => (s₁, false)

/-- An access outside the context's window (R87): SRAM_WIN, FIGERR 8, hold. -/
def windowFault (s : State) (d : DieId) (k : CallerId) (c : CtxId) : State :=
  refuseFigure (s.flag (aTdUnitstat d) 1) d k c 8

/-- The window a context has on a die now: a TD_CTXWIN written since is not in force yet (R111). -/
def ctxWindow (s : State) (d : DieId) (c : CtxId) : Word :=
  (SMap.get (fun _ => none) s.wins (64 * d.val + c.val)).getD (s.rd (aTdCtxwin d c))

/-- The written window of a context comes into force on a die (R111). -/
def newWindow (s : State) (d : DieId) (c : CtxId) : State :=
  { s with wins := SMap.set (fun _ => none) s.wins (64 * d.val + c.val) none }

/-- A range lies inside the window and, while the reel is enabled, outside the reel (R87, R529). -/
def windowOk (s : State) (d : DieId) (win : Word) (a n : Nat) : Bool :=
  inWindow win a n && !(s.bit (aDbgReelctl d) 31 && a + n > reelBase)

/-- Reads of a figure: every range inside the window, then the SECDED outcomes (R87, R88). -/
def sramAccess (s : State) (d : DieId) (k : CallerId) (c : CtxId) (win : Word) (master : Nat) (ranges : List (Nat × Nat)) :
    State × Bool :=
  if ranges.all fun r => windowOk s d win r.1 r.2 then sramCheck s d k c master ranges
  else (windowFault s d k c, false)

/-- The partly covered words at the edges of an output range, which a read-modify-write reads (R88). -/
def edgeWords (a n : Nat) : List (Nat × Nat) :=
  (if a % 8 ≠ 0 then [(a / 8 * 8, 8)] else []) ++ (if (a + n) % 8 ≠ 0 then [((a + n) / 8 * 8, 8)] else [])

/-- An output of whole words but for its edges, written through the main port: the edges are checked as reads (R88), then the
bytes land. -/
def sramWrite (s : State) (d : DieId) (k : CallerId) (c : CtxId) (master : Nat) (a : Nat) (bs : List Byte) : State × Bool :=
  let (s₁, ok) := sramCheck s d k c master (edgeWords a bs.length)
  if ok then ((s₁.write (sramPa d a) bs).mainPort (sramPa d a) bs.length, true) else (s₁, false)

/-- Elements narrower than a word written through the main port in ascending order, each a read-modify-write of the word it
lies in (R88): the first poisoned word ends the writing and stays as it was, with what lies above it (log entry 69). -/
def sramElems (s : State) (d : DieId) (k : CallerId) (c : CtxId) (master : Nat) (a : Nat) (bs : List Byte) : State × Bool :=
  let pa := sramPa d a
  let n := match (s.eccScan pa bs.length).2 with | some w => w - pa | none => bs.length
  match sramCheck s d k c master [(a, n)] with
  | (s₁, false) => (s₁, false)
  | (s₁, true) =>
    let s₂ := if n = 0 then s₁ else (s₁.write pa (bs.take n)).mainPort pa n
    if n < bs.length then sramCheck s₂ d k c master [(a + n, bs.length - n)] else (s₂, true)

/-- Runs of elements written one after another. -/
def sramRuns (s : State) (d : DieId) (k : CallerId) (c : CtxId) (master : Nat) : List (Nat × List Byte) → State × Bool
  | [] => (s, true)
  | (a, bs) :: ws =>
    let (s₁, ok) := sramElems s d k c master a bs
    if ok then sramRuns s₁ d k c master ws else (s₁, false)

end Sys2Proof.Machine
end

