-- ==== Sys2Proof/Machine/SyncOps.lean ====
section
/-! DEFINITION. Sync objects, the waiter table and anchor cells (R51 to R56, R134 to R143). -/
namespace Sys2Proof.Machine

/-- Value, mode and owner of an object (R141). -/
def syncVal (s : State) (o : ObjId) : BitVec 20 := BitVec.ofNat 20 (s.fld (aHubSyncval o) 19 0)
def syncEn (s : State) (o : ObjId) : Bool := s.bit (aHubSynccfg o) 15
def syncSat (s : State) (o : ObjId) : Bool := s.bit (aHubSynccfg o) 14
def syncOwner (s : State) (o : ObjId) : Nat := s.fld (aHubSynccfg o) 5 0

/-- A message of a context to an object passes the checks of R139. -/
def syncAllowed (s : State) (o : ObjId) (c : CtxId) : Bool := syncEn s o && syncOwner s o = c.val

/-- The waiters of an object whose condition holds get RELEASE and leave the table (R138). -/
def releaseWaiters (s : State) (o : ObjId) : State :=
  let met (w : Waiter) : Bool := w.obj = o && waitMet (syncSat s o) (syncVal s o) w.thr
  let read := (s.waiters.filter fun w => w.obj = o).foldl (fun s w => s.hubCheck hubWaiter (aWaiterWord w.slot.val)) s
  let s₁ := { read with waiters := s.waiters.filter fun w => !met w }
  (s.waiters.filter met).foldl (fun s w =>
    if h : w.slot.val < 48 then
      s.send (.release o w.ctx ⟨w.slot.val / 4, by omega⟩ ⟨w.slot.val % 4, by omega⟩)
    else s.send (.guestRelease (Fin.ofNat 16 (w.slot.val - 48)))) s₁

/-- The object's value changes and every registration is tested (R138). -/
def setSyncVal (s : State) (o : ObjId) (v : BitVec 20) : State :=
  releaseWaiters ((s.setFld (aHubSyncval o) 19 0 v.toNat).hubWrite 6 (aHubSyncval o)) o

/-- The object's words are read and checked. -/
def syncRead (s : State) (o : ObjId) : State := (s.hubCheck hubSync (aHubSyncval o)).hubCheck hubSync (aHubSynccfg o)

/-- The object takes value `x` and then increments of `i` in all (R134): WRAP wraps, SAT saturates and records it. -/
def addSync (s : State) (o : ObjId) (x : BitVec 20) (i : Nat) : State :=
  if syncSat s o && decide (x.toNat + i ≥ 2 ^ 20) then
    setSyncVal (s.flag (aHubSynccfg o) 13) o (BitVec.ofNat 20 (2 ^ 20 - 1))
  else setSyncVal s o (x + BitVec.ofNat 20 i)

/-- A VALUE of an object with another value. -/
def revalue (o : ObjId) (x : BitVec 20) : Msg → Msg
  | .value p c d k y => if p = o then .value p c d k x else .value p c d k y
  | .guestValue p y => if p = o then .guestValue p x else .guestValue p y
  | m => m

/-- VALUEs of the object that the hub has sent in the present beat take its value as it now is (R132). -/
def refreshValues (s : State) (o : ObjId) : State :=
  { s with
    net := s.net.map fun m => if s.now.values.contains m then revalue o (syncVal s o) m else m
    now := { s.now with values := s.now.values.map (revalue o (syncVal s o)) } }

/-- The hub answers a read (R132). -/
def sendValue (s : State) (m : Msg) : State := { s with now := { s.now with values := s.now.values ++ [m] } }.send m

/-- Increments that signals of the present beat have added to an object (R135). -/
def beatSignals (s : State) (o : ObjId) : Nat := SMap.get (fun _ => 0) s.now.signals o

/-- A signal of increment `i` (R132, R134, R135). -/
def applySignal (s₀ : State) (o : ObjId) (i : BitVec 8) : State :=
  let s := syncRead s₀ o
  let s₁ := { s with now := { s.now with signals := SMap.set (fun _ => 0) s.now.signals o (beatSignals s o + i.toNat) } }
  refreshValues (addSync s₁ o (syncVal s o) i.toNat) o

/-- HUB_SYNCVAL written: the value first, then the signals of the same beat (R135). -/
def writeSyncval (s : State) (o : ObjId) (v : BitVec 20) : State := addSync s o v (beatSignals s o)

/-- KIND of HUB_SYNCERR (R142). -/
def syncKindCode : SyncKind → Nat
  | .signal => 0 | .waitreg => 1 | .read => 3

/-- A violation is captured while VALID is 0 (R139, R142). -/
def syncErr (s : State) (kind : SyncKind) (o : ObjId) (c : CtxId) (die caller : Nat) : State :=
  if s.bit aHubSyncerr 31 then s
  else s.capture aHubSyncerr (BitVec.ofNat 32 (2 ^ 31 + c.val * 2 ^ 22 + die * 2 ^ 18 + caller * 2 ^ 16 + syncKindCode kind * 2 ^ 12 + o.val))

/-- A refused message: recorded, and the refusal goes to the sending die (R139). -/
def refuseSync (s : State) (kind : SyncKind) (o : ObjId) (c : CtxId) (d : DieId) (k : CallerId) : State :=
  (syncErr s kind o c d k).send (.refusal kind o c d k)

/-- The waiter entry of a Caller (R138). -/
def callerSlot (d : DieId) (k : CallerId) : Fin 64 := ⟨4 * d.val + k.val, by omega⟩

/-- The entries of a slot for an object freed. -/
def freeWaiter (s : State) (slot : Fin 64) (o : ObjId) : State :=
  { s with waiters := s.waiters.filter fun w => !(w.slot = slot && w.obj = o) }

/-- A registration: RELEASE at once when the condition holds, otherwise an entry of the table (R138). -/
def registerWait (s : State) (slot : Fin 64) (o : ObjId) (t : BitVec 20) (c : CtxId) : State :=
  let s₁ := (syncRead s o).hubWrite 6 (aWaiterWord slot.val)
  releaseWaiters
    { s₁ with waiters := (s.waiters.filter fun w => w.slot ≠ slot) ++ [{ slot := slot, obj := o, thr := t, ctx := c }] } o

/-- A host write that changes EN, MODE or OWNER frees the object's waiters, and each such Caller holds with FIGERR 7
(R141). -/
def evictWaiters (s : State) (o : ObjId) : State :=
  let gone := s.waiters.filter fun w => w.obj = o
  gone.foldl (fun s w =>
    if h : w.slot.val < 48 then
      refuseFigure s ⟨w.slot.val / 4, by omega⟩ ⟨w.slot.val % 4, by omega⟩ w.ctx 7
    else s) { s with waiters := s.waiters.filter fun w => w.obj ≠ o }

/-! ### Anchor cells (R51 to R55) -/

def State.cell (s : State) (i : Nat) : Cell := SMap.get (fun _ => {}) s.cells i

/-- A cell's word is written. -/
def State.setCell (s : State) (i : Nat) (c : Cell) : State :=
  { s with cells := SMap.set (fun _ => {}) s.cells i c }.hubWrite 7 (aCellWord i)

/-- A cell's word is read and checked. -/
def cellRead (s : State) (i : Nat) : State := s.hubCheck hubCell (aCellWord i)

/-- Bits set in a 255-bit bitmap. -/
def bitCount (b : BitVec 255) : Nat := ((List.range 255).filter fun i => b.getLsbD i).length

/-- The bitmap with the bit of an index set. -/
def withBit (b : BitVec 255) (i : Nat) : BitVec 255 := b ||| BitVec.ofNat 255 (2 ^ i)

/-- What a cell does with a message (R52): its next state, whether the message is discarded with CELL_ERR, and the
participants that get a Result. -/
structure CellAct where
  cell : Cell
  err : Bool := false
  results : List Sender := []
deriving DecidableEq, Repr

/-- A Post at a cell (R52). -/
def cellPost (c : Cell) (tag : BitVec 48) (index count : BitVec 8) (v : BitVec 32) (who : Sender) : CellAct :=
  if count.toNat ≤ index.toNat then { cell := c, err := true }
  else
    let me : Fin 256 × Sender := (Fin.ofNat 256 index.toNat, who)
    match c.st with
    | .free =>
      let n : Cell :=
        { st := if count = 1 then .done else .collecting, tag := tag, count := count,
          posts := withBit 0 index.toNat, rels := 0, value := v, who := [me] }
      { cell := n, results := if count = 1 then [who] else [] }
    | .collecting =>
      if c.tag ≠ tag ∨ c.count ≠ count then { cell := c, err := true }
      else
        let n : Cell :=
          { c with
            value := if c.value.toInt < v.toInt then v else c.value
            posts := withBit c.posts index.toNat
            who := (c.who.filter fun w => w.1 ≠ me.1) ++ [me] }
        if bitCount n.posts = count.toNat then { cell := { n with st := .done }, results := n.who.map (·.2) }
        else { cell := n }
    | .done =>
      if c.tag ≠ tag ∨ c.count ≠ count then { cell := c, err := true }
      else { cell := { c with who := (c.who.filter fun w => w.1 ≠ me.1) ++ [me] }, results := [who] }

/-- A Release at a cell (R52). -/
def cellRelease (c : Cell) (tag : BitVec 48) (index : BitVec 8) : CellAct :=
  match c.st with
  | .free => { cell := c }
  | .collecting => { cell := c, err := true }
  | .done =>
    if c.tag ≠ tag ∨ c.count.toNat ≤ index.toNat then { cell := c, err := true }
    else
      let n : Cell := { c with rels := withBit c.rels index.toNat }
      if bitCount n.rels = c.count.toNat then { cell := {} } else { cell := n }

/-- CELL_ERR at a die (R52, R57): the bit, the event, and the hold at the figure. -/
def cellError (s : State) (d : DieId) (k : CallerId) (c : CtxId) (f : List Byte) : State :=
  hold ((numStat s d k c (figLayer f) (figOperator f) nfCellErr).report (ctxEvent d k c 0x04 0)) d k c 0

/-- HUB_ACELL_BUSY: the cells of a word that are not FREE (R55). -/
def acellBusy (s : State) (i : Nat) : Word :=
  (List.range 32).foldl (fun w b => if (s.cell (32 * i + b)).st = .free then w else w ||| BitVec.ofNat 32 (2 ^ b)) 0

end Sys2Proof.Machine
end

