-- ==== Sys2Proof/Machine/Plan.lean ====
section
/-! DEFINITION. The slot plan (R215 to R222): its bytes in the two banks, headers, entries, rows, and what the active plan
gives a position in a slot. -/
namespace Sys2Proof.Machine

/-- Words of bank A (0) or B (1). -/
def planWordAddr (bank off : Nat) : Nat := if bank = 0 then aPlanA (off / 4) else aPlanB (off / 4)

/-- `n` little-endian bytes of a bank, n ≤ 4 and within one word. -/
def planField (s : State) (bank off n : Nat) : Nat :=
  (s.rd (planWordAddr bank off)).toNat / 2 ^ (8 * (off % 4)) % 2 ^ (8 * n)

/-- The bytes of a bank from an offset. -/
def planBytes (s : State) (bank off n : Nat) : List Byte :=
  (List.range n).map fun i => BitVec.ofNat 8 (planField s bank (off + i) 1)

/-- The active bank (R239). -/
def activeBank (s : State) : Nat := s.fld aHubPlanstat 28 28
def standbyBank (s : State) : Nat := 1 - activeBank s

/-- Length in rows; 0 where the header has none. -/
def planLen (s : State) (bank : Nat) : Nat := planField s bank 4 2 * 256
def planNent (s : State) (bank : Nat) : Nat := planField s bank 6 2

/-- An entry (R216). -/
structure PlanEntry where
  kind : Nat
  ctx : Nat
  src : Nat
  fanout : Nat
  dsts : List Nat
  land : Nat
  landLen : Nat
  die : Nat
deriving DecidableEq, Repr

def planEntry (s : State) (bank e : Nat) : PlanEntry where
  kind := planField s bank (32 * e) 1 % 16
  ctx := planField s bank (32 * e + 1) 1 % 64
  src := planField s bank (32 * e + 2) 1
  fanout := planField s bank (32 * e + 3) 1
  dsts := ((List.range 8).map fun i => planField s bank (32 * e + 4 + i) 1).take (planField s bank (32 * e + 3) 1)
  land := planField s bank (32 * e + 12) 4 % 2 ^ 27
  landLen := planField s bank (32 * e + 16) 4 % 2 ^ 22
  die := planField s bank (32 * e + 20) 1 % 16

def kindEmpty : Nat := 0
def kindData : Nat := 1
def kindPartial : Nat := 2
def kindStream : Nat := 3
def kindMemory : Nat := 4

/-- Owner of input position `q` in row `r` (R218). -/
def rowOwner (s : State) (bank r q : Nat) : Nat := planField s bank (0x20000 + 512 * r + 2 * q) 2 % 4096

/-- Electrical grant `g` of a row: entry, stack and lines. -/
def rowGrant (s : State) (bank r g : Nat) : Nat × Nat × Nat :=
  let w := planField s bank (0x20000 + 512 * r + 256 + 4 * g) 4
  (bits w 11 0, bits w 16 12, bits w 28 17)

/-- Row of a slot in the active plan (R215). -/
def slotRow (s : State) (slot : Nat) : Nat := if planLen s (activeBank s) = 0 then 0 else slot % planLen s (activeBank s)

/-- Owner of an input position in a slot: none without a plan. -/
def slotOwner (s : State) (slot q : Nat) : Nat :=
  if planLen s (activeBank s) = 0 then 0 else rowOwner s (activeBank s) (slotRow s slot) q

/-- Some row of the active plan gives input `q` to entry `e`. -/
def entryOwns (s : State) (e q : Nat) : Bool :=
  (List.range (planLen s (activeBank s))).any fun r => rowOwner s (activeBank s) r q = e

/-- The input positions of an endpoint (R18, R217). -/
def endpointInputs (src : Nat) : List Nat :=
  if src < 12 then (List.range 8).map fun p => 8 * src + p else if 16 ≤ src ∧ src < 32 then [96 + (src - 16)] else []

/-- The output position that destination `dst` takes from input `q` (R217). -/
def outputOf (q dst : Nat) : Nat :=
  if dst < 12 then (if q < 96 then 8 * dst + q % 8 else 8 * dst + (q - 96) % 8) else 96 + (dst - 16)

/-- Outputs that an entry connects from input `q`. -/
def entryOutputs (e : PlanEntry) (q : Nat) : List Nat := e.dsts.map (outputOf q)

/-- Input positions that may carry a flit of an entry: those that rows of the active plan give it, within a SEND's PORTS mask
(R98, R125, R221). -/
def entryPorts (s : State) (e : Nat) (ports : BitVec 8) : List Nat :=
  (endpointInputs (planEntry s (activeBank s) e).src).filter fun q => entryOwns s e q && (q ≥ 96 || ports.getLsbD (q % 8))

/-- A figure of a context may not use the entry (R221): EMPTY, another context's, another kind, or a port without a row. -/
def entryRefused (s : State) (e kind : Nat) (c : CtxId) (d : DieId) (ports : Nat) : Bool :=
  let p := planEntry s (activeBank s) e
  p.kind = kindEmpty || p.ctx ≠ c.val || p.kind ≠ kind ||
    (kind = kindData && (List.range 8).any fun i => ports.testBit i && !entryOwns s e (8 * d.val + i))

/-- A destination of an entry that a split makes: more than one. -/
def PlanEntry.isSplit (p : PlanEntry) : Bool := p.fanout > 1

/-! ### Flits that wait for their entry's slots -/

def State.txq (s : State) (e : Nat) : List PlanFlit := SMap.get (fun _ => []) s.mesh.tx e
def State.setTxq (s : State) (e : Nat) (q : List PlanFlit) : State :=
  { s with mesh := { s.mesh with tx := SMap.set (fun _ => []) s.mesh.tx e q } }

/-- Flits of a launch that wait or are stored for a replay, in the mesh or at an external port. -/
def flitsOf (s : State) (o : Origin) : Nat :=
  (s.mesh.tx.foldl (fun n e => n + (e.2.filter fun f => f.origin = some o).length) 0) +
    (s.mesh.txPairs.foldl (fun n t => n + (t.store.filter fun f => f.flit.origin = some o).length) 0) +
    (s.links.foldl (fun n e => n + (e.2.planq.filter fun f => f.origin = some o).length +
      (e.2.buf.filter fun f => f.origin = some o).length) 0)

/-- Places of a port's transmit buffer, or of an external port's receive buffer, that are taken (R98, R217). -/
def portUsed (s : State) (q : Nat) : Nat :=
  s.mesh.tx.foldl (fun n e => n + (e.2.filter fun f => f.place.map (·.val) = some q).length) 0

/-- A port with a free place for a flit of an entry: the one of its ports that holds the fewest; a transmit buffer has 32
places (R98), and the credits of an external link bound its receive buffer (R333). -/
def freePort (s : State) (e : Nat) (ports : BitVec 8) : Option (Fin 128) :=
  let free := (entryPorts s e ports).filter fun q => q ≥ 96 || portUsed s q < 32
  match free with
  | [] => none
  | q :: qs => some (Fin.ofNat 128 (qs.foldl (fun m x => if portUsed s x < portUsed s m then x else m) q))

/-- The flits of an entry that wait for a place take what is free, in payload order (R98). -/
def placeEntry (s : State) (e : Nat) : State :=
  (List.range (s.txq e).length).foldl (fun s i =>
    match (s.txq e)[i]? with
    | none => s
    | some f =>
      if f.place.isSome || ((s.txq e).take i).any (fun g => g.place.isNone) then s
      else match freePort s e f.ports with
        | none => s
        | some q => s.setTxq e ((s.txq e).set i { f with place := some q })) s

/-- Every entry's flits take the places that have come free. -/
def placeAll (s : State) : State := (s.mesh.tx.map (·.1)).foldl placeEntry s

/-- Every flit of a launch has a place in a transmit buffer or has departed (R77, R81). -/
def flitsPlaced (s : State) (e : Nat) (o : Origin) : Bool :=
  (s.txq e).all fun f => f.origin ≠ some o || f.place.isSome

/-- The flits of a launch leave the transmit buffers (R343). -/
def State.dropFlits (s : State) (o : Origin) : State :=
  let keep (fs : List PlanFlit) : List PlanFlit := fs.filter fun f => f.origin ≠ some o
  { s with mesh := { s.mesh with tx := (s.mesh.tx.map fun e => (e.1, keep e.2)).filter fun e => e.2 ≠ [] } }

/-- Payload cut into flits of 240 bytes, the last padded (R125). -/
def flitPayload (bytes : List Byte) : List Byte := padTo 240 bytes

end Sys2Proof.Machine
end

