-- ==== Sys2Proof/Machine/Matmul.lean ====
section
/-! DEFINITION. What a MATMUL computes over the SRAM of its die (R45 to R50, R57 to R61, R73 to R77). -/
namespace Sys2Proof.Machine

/-- Scale code of the MX block that holds element `k` of a row. -/
def scaleAt (s : State) (d : DieId) (base row blocks k : Nat) : Nat := (s.byte (sramPa d (base + row * blocks + k / 32))).toNat

/-- The product of activation element (i, k) and weight element (j, k) with its LSB exponent (R45); a scale of 0xFF makes it
NaN (R41, R49). -/
def matProd (s : State) (d : DieId) (m : MatDesc) (i j k : Nat) : Prod :=
  let (fa, fw) := m.fmts
  let xa := elemAt s d fa m.aAddr (i * m.k + k)
  let xw := elemAt s d fw m.wAddr (j * m.k + k)
  if m.isBf16 then
    let a := bf16Decode xa
    let w := bf16Decode xw
    { a := a.1, w := w.1, e := a.2 + w.2 }
  else
    let sa := scaleAt s d m.aScale i (m.k / 32) k
    let sw := scaleAt s d m.wScale j (m.k / 32) k
    if sa = 255 ∨ sw = 255 then { a := .nan, w := .nan, e := 0 }
    else { a := elemDecode fa xa, w := elemDecode fw xw,
           e := ((sa : Int) - 127) + ((sw : Int) - 127) - fa.fracBits - fw.fracBits }

/-- Products of output element (i, j), in ascending k. -/
def matProds (s : State) (d : DieId) (m : MatDesc) (i j : Nat) : List Prod :=
  (List.range m.k).map (matProd s d m i j)

/-- The largest of the values that qualify. -/
def peakOf (l : List (Option Int)) : Option Int := l.foldl optMax none

def optAdd (x y : Option Int) : Option Int := match x, y with | some a, some b => some (a + b) | _, _ => none

/-- Unbiased exponent of a BF16 element that is finite and not zero (R46). -/
def bf16Peak (x : Nat) : Option Int :=
  match bf16Decode x with
  | (.fin n, e) => if n = 0 then none else some (e + 7)
  | _ => none

/-- The local anchor of a die (R46, R76): over every block, or pair, that it holds; NONE when none qualifies. -/
def matAnchor (s : State) (d : DieId) (m : MatDesc) : Option Int :=
  let (fa, fw) := m.fmts
  if m.isBf16 then
    let p := peakOf ((List.range m.k).map fun k =>
      optAdd (peakOf ((List.range m.m).map fun i => bf16Peak (elemAt s d fa m.aAddr (i * m.k + k))))
        (peakOf ((List.range m.n).map fun j => bf16Peak (elemAt s d fw m.wAddr (j * m.k + k)))))
    p.map (· + 10)
  else
    let code (base row b : Nat) : Option Int :=
      let x := scaleAt s d base row (m.k / 32) (32 * b)
      if x = 255 then none else some ((x : Int) - 127)
    let p := peakOf ((List.range (m.k / 32)).map fun b =>
      optAdd (peakOf ((List.range m.m).map fun i => code m.aScale i b)) (peakOf ((List.range m.n).map fun j => code m.wScale j b)))
    p.map (· + fa.guard + fw.guard + 8)

/-- The output elements' indices in the output tensor, row-major (R121). -/
def matIndices (m : MatDesc) : List (Nat × Nat) :=
  (List.range m.m).flatMap fun i => (List.range m.n).map fun j => (i, j)

/-- Accumulators of every output element at the global anchor (R50). -/
def matAccumulate (s : State) (d : DieId) (m : MatDesc) (anchor : Option Int) : List Acc :=
  (matIndices m).map fun ij => eaaAccumulate anchor (matProds s d m ij.1 ij.2)

/-! ### RELAXED (R61) -/

/-- K of one tile (R73). -/
def tileK (m : MatDesc) : Nat := if m.isBf16 then 64 else if m.aFmt = 4 ∧ m.wFmt = 4 then 256 else 128

/-- First tile of unit `u` of the `s` units that share `t` K tiles (R75): equal shares where `s` divides `t`; otherwise the
spec does not say where the shares are cut. -/
def tileCut (t s u : Nat) : Nat :=
  if t % s = 0 then u * (t / s) else if u = 0 then 0 else if u ≥ s then t else min t (Config.tileCut t s u)

/-- Largest cut up to unit `u`, so that shares do not overlap. -/
def shareStart (t s : Nat) : Nat → Nat
  | 0 => 0
  | u + 1 => max (shareStart t s u) (tileCut t s (u + 1))

/-- A product rounded to FP32 by RNE (R61). -/
def relaxedProd (p : Prod) : Fv :=
  match p.a, p.w with
  | .nan, _ | _, .nan => ⟨qnan, 0⟩
  | .inf x, .inf y => ⟨fpInf (x != y), 0⟩
  | .inf x, .fin n | .fin n, .inf x => if n = 0 then ⟨qnan, 0⟩ else ⟨fpInf (x != decide (n < 0)), 0⟩
  | .fin x, .fin y => toFp32 (x * y) p.e

/-- The conditions kept of a RELAXED sum's steps: an overflow, and a flush to zero while the sum is zero (R67). -/
def addOvf (x y : Fv) : Fv :=
  let r := fadd x.bits y.bits
  ⟨r.bits, (x.fl ||| y.fl ||| r.fl) &&& (if fpIsZero r.bits then nfOvf ||| nfFtz else nfOvf)⟩

/-- A RELAXED output element of one die: each unit's share in ascending k from +0, the units' partials in ascending
number (R61, R76). -/
def relaxedElem (s : State) (d : DieId) (m : MatDesc) (i j : Nat) : Fv :=
  let t := (m.k + tileK m - 1) / tileK m
  let part (u : Nat) : Fv :=
    let lo := min m.k (shareStart t m.ksplit u * tileK m)
    let hi := min m.k (shareStart t m.ksplit (u + 1) * tileK m)
    ((List.range (hi - lo)).map fun x => relaxedProd (matProd s d m i j (lo + x))).foldl addOvf ⟨0, 0⟩
  match (List.range m.ksplit).map part with
  | [] => ⟨0, 0⟩
  | p :: ps => ps.foldl addOvf p

def matRelaxed (s : State) (d : DieId) (m : MatDesc) : List Fv := (matIndices m).map fun ij => relaxedElem s d m ij.1 ij.2

/-! ### Write-back (R58, R59) -/

/-- Seed of the figure's stochastic rounding (R59). -/
def rndSeed (s : State) (c : CtxId) (code : Nat) (entropy : BitVec 64) : BitVec 64 :=
  if code = 1 then s.rd64 (aHubCtxrseed0 c) else entropy

/-- Rounding of element `idx` by the figure's code. -/
def rndOf (code : Nat) (seed step : BitVec 64) (tensor idx : Nat) : Rnd :=
  if code = 0 then .rne else .sr (keyedRandom seed step (BitVec.ofNat 32 tensor) (BitVec.ofNat 32 idx)).toNat

/-- A list with the position of each element. -/
def withIdx {α : Type} (l : List α) : List (Nat × α) := (List.range l.length).zip l

/-- EAA write-back: the output bytes and the conditions met. -/
def matWriteBack (m : MatDesc) (anchor : Option Int) (seed step : BitVec 64) (accs : List Acc) : List Byte × NumFlags :=
  let rs := (withIdx accs).map fun e =>
    e.2.writeBack anchor (if m.bf16 then 8 else 24) (rndOf m.rnd seed step m.tensor e.1)
  (packElems m.outFmt (rs.map fun r => outElem m.outFmt r.bits), rs.foldl (fun f r => f ||| r.fl) 0)

/-- RELAXED write-back: BF16 outputs are narrowed by the figure's rounding. -/
def relaxedWriteBack (m : MatDesc) (seed step : BitVec 64) (ps : List Fv) : List Byte × NumFlags :=
  let one (idx : Nat) (p : Fv) : Fv :=
    if fpIsNan p.bits then ⟨qnan, nfNan⟩
    else if fpIsInf p.bits then ⟨p.bits, p.fl &&& nfOvf⟩
    else if m.bf16 && !fpIsZero p.bits then roundTo 8 (fpSig p.bits) (fpLsb p.bits) (rndOf m.rnd seed step m.tensor idx)
    else ⟨p.bits, if fpIsZero p.bits then p.fl &&& nfFtz else 0⟩
  let rs := (withIdx ps).map fun e => one e.1 e.2
  (packElems m.outFmt (rs.map fun r => outElem m.outFmt r.bits), rs.foldl (fun f r => f ||| r.fl) 0)

/-! ### Wide partials (R57) and FP32 partials (R61) -/

/-- A list cut into pieces of `n`; `fuel` bounds the pieces. -/
def chunks {α : Type} (n : Nat) : Nat → List α → List (List α)
  | 0, _ => []
  | fuel + 1, l => if l.isEmpty then [] else l.take n :: chunks n fuel (l.drop n)

/-- 16-bit anchor field, 0x8000 for NONE. -/
def anchorField (a : Option Int) : Nat := match a with | none => 0x8000 | some v => (BitVec.ofInt 16 v).toNat

/-- Bits of an element's flags. -/
def accFlags (a : Acc) : Nat :=
  (if a.sticky then 1 else 0) + (if a.nan then 2 else 0) + (if a.pinf then 4 else 0) + (if a.ninf then 8 else 0)

/-- Payload of a wide-partial flit for the elements from `first`. -/
def widePayload (anchor : Option Int) (first : Nat) (accs : List Acc) : List Byte :=
  padTo 240 (leBytes 2 (anchorField anchor) ++ leBytes 2 accs.length ++ leBytes 4 first ++
    leBytes 4 ((withIdx accs).foldl (fun n e => n + accFlags e.2 * 16 ^ e.1) 0) ++ leBytes 4 0 ++
    accs.flatMap fun a => leBytes 32 (BitVec.ofInt 256 a.acc).toNat)

/-- Payloads of all wide-partial flits of a reduction, in element order. -/
def widePayloads (anchor : Option Int) (accs : List Acc) : List (List Byte) :=
  (withIdx (chunks 7 accs.length accs)).map fun e => widePayload anchor (7 * e.1) e.2

/-- Payloads of FP32 partials, 60 a flit (R61). -/
def fp32Payloads (ps : List Word) : List (List Byte) :=
  (chunks 60 ps.length ps).map fun c => padTo 240 (c.flatMap fun w => leBytes 4 w.toNat)

/-- A wide-partial payload as received. -/
structure WideFlit where
  anchor : Nat
  count : Nat
  first : Nat
  accs : List Acc
deriving DecidableEq, Repr

def wideDecode (b : List Byte) : WideFlit where
  anchor := fieldAt b 0 2
  count := fieldAt b 2 2
  first := fieldAt b 4 4
  accs := (List.range (min 7 (fieldAt b 2 2))).map fun j =>
    let fl := fieldAt b 8 4 / 16 ^ j % 16
    { acc := (BitVec.ofNat 256 (fieldAt b (16 + 32 * j) 32)).toInt, sticky := fl.testBit 0, nan := fl.testBit 1,
      pinf := fl.testBit 2, ninf := fl.testBit 3 }

/-- Elements of `l` from position `first` combined with those of `xs`. -/
def addFrom {α : Type} (f : α → α → α) (first : Nat) (l xs : List α) : List α :=
  (withIdx l).map fun e =>
    if e.1 < first then e.2 else match xs[e.1 - first]? with | none => e.2 | some x => f e.2 x

end Sys2Proof.Machine
end

