-- ==== Sys2Proof/Machine/Vector.lean ====
section
/-! DEFINITION. What the vector units and the sampling unit compute (R60, R62, R63, R78 to R81, R93 to R96). -/
namespace Sys2Proof.Machine

/-! ### Element-wise operations (R62, R78, R123) -/

/-- CVT and the value a float operand has in every unit: NaN canonical, subnormals as zeros (R44). -/
def fpCanon (x : Word) : Word := if fpIsNan x then qnan else if fpIsZero x then fpZero (fpNeg x) else x

/-- One element of an element-wise operation, as FP32. -/
def vecElem (op : Nat) (a b c : Word) : Fv :=
  match op with
  | 1 => fadd a b | 2 => fsub a b | 3 => fmul a b | 4 => ffma a b c | 5 => fmax a b | 6 => fmin a b
  | 7 => ⟨fneg a, 0⟩ | 8 => ⟨fpCanon a, 0⟩ | 9 => vuExp2 a | 0x0A => vuLog2 a | 0x0B => vuRsqrt a | 0x0C => vuRecip a
  | 0x0D => vuSilu a | _ => vuGeluTanh a

/-- The value written, with NAN where a NaN is written by an operation that is not MAX or MIN (R62, R67). -/
def vecEmit (op : Nat) (out : Fmt) (v : Fv) : Fv :=
  let r := match out with | .bf16 => narrowBf16 v | _ => v
  let fl := r.fl &&& ~~~nfNan
  ⟨r.bits, if fpIsNan r.bits && op ≠ 5 && op ≠ 6 then fl ||| nfNan else fl⟩

/-- What a group of elements gives: ranges written, conditions, and whether an index was out of range. -/
structure VecOut where
  writes : List (Nat × List Byte) := []
  fl : NumFlags := 0
  idx : Bool := false
deriving DecidableEq, Repr

def foldFl (rs : List Fv) : NumFlags := rs.foldl (fun f r => f ||| r.fl) 0

/-- Elements `g` to `g + n - 1` of an element-wise operation. -/
def vecGroup (s : State) (d : DieId) (v : VecDesc) (g n : Nat) : VecOut :=
  let rs := (List.range n).map fun j =>
    let x (base : Nat) := floatAt s d v.fin base (g + j)
    vecEmit v.op v.fout (vecElem v.op (x v.a) (if v.usesB then x v.b else 0) (if v.usesC then x v.c else 0))
  { writes := [(v.out + g * v.fout.width / 8, packElems v.fout (rs.map fun r => outElem v.fout r.bits))], fl := foldFl rs }

/-- QUANT of a group (R60): blocks of 32. -/
def quantGroup (s : State) (d : DieId) (v : VecDesc) (seed step : BitVec 64) (g n : Nat) : VecOut :=
  let bs := (List.range (n / 32)).map fun b =>
    quantBlock v.fq ((List.range 32).map fun j =>
      let i := g + 32 * b + j
      (floatAt s d v.fin v.a i, rndOf v.qrnd seed step v.tensor i))
  { writes := [(v.out + g * v.fq.width / 8, packElems v.fq (bs.flatMap fun b => b.2.1)),
               (v.scale + g / 32, bs.map fun b => BitVec.ofNat 8 b.1)]
    fl := bs.foldl (fun f b => f ||| b.2.2) 0 }

/-- DEQUANT of a group (R78). -/
def dequantGroup (s : State) (d : DieId) (v : VecDesc) (g n : Nat) : VecOut :=
  let rs := (List.range n).map fun j =>
    dequantElem v.fq (s.byte (sramPa d (v.scale + (g + j) / 32))).toNat (elemAt s d v.fq v.a (g + j))
      (if v.fout = .bf16 then 8 else 24)
  { writes := [(v.out + g * v.fout.width / 8, packElems v.fout (rs.map fun r => outElem v.fout r.bits))], fl := foldFl rs }

/-- An index of GATHER or SCATTER, signed (R80). -/
def idxAt (s : State) (d : DieId) (v : VecDesc) (i : Nat) : Int := (BitVec.ofNat 32 (elemAt s d .int32 v.c i)).toInt

/-- The index is inside the indexed array. -/
def idxOk (v : VecDesc) (i : Int) : Bool := 0 ≤ i && i < v.row

/-- An element as GATHER and SCATTER hand it on: a BF16 or FP32 subnormal is a zero of its sign, and a NaN the canonical one, as in
every unit (R44, log entry 70). -/
def movedElem (s : State) (d : DieId) (f : Fmt) (base i : Nat) : Nat :=
  match f with
  | .bf16 | .fp32 => outElem f (fpCanon (floatAt s d f base i))
  | _ => elemAt s d f base i

/-- A NaN that GATHER or SCATTER writes is a NaN result (R67). -/
def movedFl (f : Fmt) (e : Nat) : NumFlags :=
  match f with
  | .bf16 => if e = 0x7FC0 then nfNan else 0
  | .fp32 => if e = 0x7FC00000 then nfNan else 0
  | _ => 0

/-- GATHER of a group (R80): 0 for an index out of range. -/
def gatherGroup (s : State) (d : DieId) (v : VecDesc) (g n : Nat) : VecOut :=
  let is := (List.range n).map fun j => idxAt s d v (g + j)
  let es := is.map fun i => if idxOk v i then movedElem s d v.fin v.a i.toNat else 0
  { writes := [(v.out + g * v.fin.width / 8, packElems v.fin es)]
    fl := es.foldl (fun f e => f ||| movedFl v.fin e) 0
    idx := is.any fun i => !idxOk v i }

/-- SCATTER of a group (R80): in ascending i, so that the highest one stays. -/
def scatterGroup (s : State) (d : DieId) (v : VecDesc) (g n : Nat) : VecOut :=
  let js := (List.range n).map fun j => (idxAt s d v (g + j), movedElem s d v.fin v.a (g + j))
  let ok := js.filter fun j => idxOk v j.1
  { writes := ok.map fun j => (v.out + j.1.toNat * v.fin.width / 8, packElems v.fin [j.2])
    fl := ok.foldl (fun f j => f ||| movedFl v.fin j.2) 0
    idx := js.any fun j => !idxOk v j.1 }

/-! ### Rows (R63) -/

def rowVals (s : State) (d : DieId) (v : VecDesc) (r : Nat) : List Word :=
  (List.range v.row).map fun j => floatAt s d .fp32 v.a (r * v.row + j)

/-- Key of a row's largest value. -/
def rowMaxKey (xs : List Word) : Int := (xs.map fpKey).foldl max (-(2 ^ 31))

/-- Local anchor of a SUMX: P + 9 over its finite non-zero values. -/
def sumAnchor (xs : List Word) : Option Int :=
  (peakOf (xs.map fun x => if fpIsZero x || fpExpF x = 255 then none else some (fpExp x))).map (· + 9)

def sumProd (x : Word) : Prod :=
  if fpIsNan x then { a := .nan, w := .fin 1, e := 0 }
  else if fpIsInf x then { a := .inf (fpNeg x), w := .fin 1, e := 0 }
  else if fpIsZero x then { a := .fin 0, w := .fin 1, e := 0 }
  else { a := .fin (fpSig x), w := .fin 1, e := fpLsb x }

def sumAcc (anchor : Option Int) (xs : List Word) : Acc := eaaAccumulate anchor (xs.map sumProd)

/-- A sum's write-back; opposite infinities without a NaN operand are an invalid operation (R62, R67). -/
def sumOut (a : Acc) (anchor : Option Int) (p : Nat) : Fv :=
  let r := a.writeBack anchor p .rne
  if a.pinf && a.ninf && !a.nan then ⟨r.bits, r.fl ||| nfInv⟩ else r

/-- ROWMAX's result: a NaN written is a NaN result. -/
def maxOut (k : Int) : Fv := ⟨fpOfKey k, if fpIsNan (fpOfKey k) then nfNan else 0⟩

/-- vu_softmax_row of R63. A NaN made from operands none of which is NaN is an invalid operation. -/
def softmaxRow (xs : List Word) : List Fv :=
  let m := fpOfKey (rowMaxKey xs)
  let es := xs.map fun x => (vuExp2 (fmul (fsub x m).bits fpLog2e).bits).bits
  let a := sumAnchor es
  let acc := sumAcc a es
  let r := (vuRecip (acc.writeBack a 24 .rne).bits).bits
  let clean := !xs.any fpIsNan
  let trunc : NumFlags := if acc.sticky then nfTrunc else 0
  es.map fun e =>
    let y := fmul e r
    ⟨y.bits, (y.fl &&& (nfOvf ||| nfFtz)) ||| trunc ||| (if fpIsNan y.bits then (if clean then nfNan ||| nfInv else nfNan) else 0)⟩

/-- One row of ROWMAX, SUMX or SOFTMAX_ROW. -/
def rowGroup (s : State) (d : DieId) (v : VecDesc) (r : Nat) : VecOut :=
  let xs := rowVals s d v r
  let emit (pos : Nat) (rs : List Fv) : VecOut :=
    { writes := [(v.out + pos * v.fout.width / 8, packElems v.fout (rs.map fun x => outElem v.fout x.bits))], fl := foldFl rs }
  if v.op = 0x12 then emit r [maxOut (rowMaxKey xs)]
  else if v.op = 0x13 then
    let a := sumAnchor xs
    emit r [sumOut (sumAcc a xs) a (if v.fout = .bf16 then 8 else 24)]
  else emit (r * v.row) (softmaxRow xs)

/-! ### A whole operation (R79) -/

/-- What a VECMAP has done: the state after its writes, the conditions met, IDX_RANGE, and whether every write was made. -/
structure VecDone where
  st : State
  fl : NumFlags := 0
  ix : Bool := false
  ok : Bool := true

/-- Groups one after another, each read in full before it is written; a poisoned word under an element ends the figure (R79,
R88). -/
def runGroups (d : DieId) (k : CallerId) (c : CtxId) (f : State → Nat → VecOut) : List Nat → VecDone → VecDone
  | [], r => r
  | g :: gs, r =>
    let o := f r.st g
    let (s₁, ok) := sramRuns r.st d k c masterVector o.writes
    let r₁ : VecDone := { st := s₁, fl := r.fl ||| o.fl, ix := r.ix || o.idx, ok := ok }
    if ok then runGroups d k c f gs r₁ else r₁

/-- A VECMAP that spans no dies. -/
def vecRun (s : State) (d : DieId) (k : CallerId) (c : CtxId) (v : VecDesc) (seed step : BitVec 64) : VecDone :=
  let size (g : Nat) := min 128 (v.len - 128 * g)
  let groups := List.range ((v.len + 127) / 128)
  let go (f : State → Nat → Nat → VecOut) := runGroups d k c (fun s g => f s (128 * g) (size g)) groups { st := s }
  if v.isRow then runGroups d k c (fun s r => rowGroup s d v r) (List.range (v.len / v.row)) { st := s }
  else if v.isQuant then go fun s g n => quantGroup s d v seed step g n
  else if v.isDequant then go fun s g n => dequantGroup s d v g n
  else if v.op = 0x18 then go fun s g n => gatherGroup s d v g n
  else if v.op = 0x19 then go fun s g n => scatterGroup s d v g n
  else go fun s g n => vecGroup s d v g n

/-- GATHER's source words: those its indices in range name, rather than the whole array (R80). -/
def vecReads (s : State) (d : DieId) (v : VecDesc) : List (Nat × Nat) :=
  if v.op = 0x18 then
    (v.c, 4 * v.len) :: ((List.range v.len).filter fun i => idxOk v (idxAt s d v i)).map fun i =>
      (v.a + (idxAt s d v i).toNat * v.fin.width / 8, v.fin.width / 8)
  else v.reads

/-! ### Sampling (R93 to R96) -/

/-- A candidate list entry (R93). -/
def candBytes (c : Cand) : List Byte := leBytes 4 c.z.toNat ++ leBytes 4 (BitVec.ofInt 32 c.idx).toNat

/-- The padding entry of a candidate list. -/
def noCand : Cand := ⟨0xFF800000, -1⟩

/-- Candidates of the input: those scanned or read, whether a NaN was met, and whether an index came twice. -/
def sampCands (s : State) (d : DieId) (v : SampDesc) : List Cand × Bool × Bool :=
  if v.lists then
    let raw := (List.range v.count).flatMap fun l => (List.range v.k).map fun i =>
      let a := v.inp + 2048 * l + 8 * i
      ({ z := fpCanon (BitVec.ofNat 32 (leNat (s.bytes (sramPa d a) 4))),
         idx := (BitVec.ofNat 32 (leNat (s.bytes (sramPa d (a + 4)) 4))).toInt } : Cand)
    let (es, nan) := suEntries raw
    let (ms, dup) := suMerge es
    (ms, nan, dup)
  else
    let (cs, nan) := suScan v.beta v.base ((List.range v.count).map fun i => floatAt s d v.fmt v.inp i)
    (cs, nan, false)

/-- What a SAMPLE writes, and its unit flags SU_NAN, SU_EMPTY, SU_DUP (R93, R96). -/
def sampRun (s : State) (d : DieId) (v : SampDesc) (seed step : BitVec 64) : List Byte × Bool × Bool × Bool :=
  let (cs, nan, dup) := sampCands s d v
  if v.final then
    let u := (keyedRandom seed step (BitVec.ofNat 32 v.tensor) (BitVec.ofNat 32 v.row)).toNat
    match suFinal cs v.k v.topp u with
    | some (c, m) =>
      (leBytes 4 (BitVec.ofInt 32 c.idx).toNat ++ leBytes 4 c.z.toNat ++ leBytes 4 m ++
        leBytes 4 ((if nan then 1 else 0) + (if dup then 4 else 0)), nan, false, dup)
    | none =>
      (leBytes 4 0xFFFFFFFF ++ leBytes 4 0xFF800000 ++ leBytes 4 0 ++
        leBytes 4 ((if nan then 1 else 0) + 2 + (if dup then 4 else 0)), nan, true, dup)
  else
    let best := (suSort cs).take v.k
    ((best ++ List.replicate (v.k - best.length) noCand).flatMap candBytes, nan, false, false)

end Sys2Proof.Machine
end

