-- ==== Sys2Proof/Machine/MirrorOps.lean ====
section
/-! DEFINITION. Link-control messages to another module, and mirror-compare (R336, R360, R380 to R384). -/
namespace Sys2Proof.Machine

/-- A link-control message joins the port's queue (R331, R336); with `rep` it is repeated until its answer arrives. -/
def lctlSend (s : State) (x : Nat) (msg : List Byte) (rep : Bool) : State :=
  let l := s.link x
  s.setLink x { l with
    lctl := l.lctl ++ [msg]
    repeats := if rep then l.repeats.filter (· ≠ msg) ++ [msg] else l.repeats }

/-- A message is answered: it is repeated no longer. -/
def lctlAnswered (s : State) (x : Nat) (p : List Byte → Bool) : State :=
  s.setLink x { s.link x with repeats := (s.link x).repeats.filter fun m => !p m }

/-- A BEAT message (R360): subtype, own module number, bytes 4 to 31. -/
def beatMsg (s : State) (sub : Nat) (body : List Byte) : List Byte :=
  padTo 32 ([0x0C, 2, BitVec.ofNat 8 sub, BitVec.ofNat 8 (ownModule s)] ++ body)

/-- The partner port (R357). -/
def partnerPort : Nat := 14

/-- The hash of R381. -/
def mcHash (bs : List Byte) : BitVec 64 :=
  (chunks 8 bs.length bs).foldl (fun h g => mix64 (h ^^^ BitVec.ofNat 64 (leNat g))) 0x6A09E667F3BCC908#64

/-- Bytes 4 to 11 of a HASH: the identity (R383). -/
def hashIdBytes (i : HashId) : List Byte :=
  [BitVec.ofNat 8 (i.ctx.val + 64 * i.caller.val), BitVec.ofNat 8 i.die.val] ++ leBytes 2 i.step.toNat ++ leBytes 2 i.cmpSeq.toNat

def hashBytes (r : HashRec) : List Byte :=
  hashIdBytes r.id ++ leBytes 3 r.pc.toNat ++ leBytes 2 r.layer.toNat ++ leBytes 2 r.operator.toNat ++ leBytes 8 r.hash.toNat

def mcEnabled (s : State) : Bool := s.bit aMcCtl 31
def mcHalted (s : State) : Bool := s.bit aMcStat 31

/-- Every Caller at a boundary holds, and every RUNNING context becomes HELD (R384); a running figure's Caller holds when
it is acknowledged. -/
def mcHoldAll (s : State) : State :=
  let s₁ := allCallers.foldl (fun s p =>
    let q := s.caller p.1 p.2
    match q.ctx with
    | some c => if runs s p.1 p.2 c && q.run.isNone then hold s p.1 p.2 c 0 else s
    | none => s) s
  (List.finRange 64).foldl (fun s c =>
    if ctxState s c = ctxRunning then
      match allCallers.find? fun p => runs s p.1 p.2 c with
      | some p => contextHeld s p.1 p.2 c 0
      | none => setCtxState s c ctxHeld
    else s) s₁

/-- The module halts for a cause of R384, with the capture, the event 0x24 and NOTIFY source 4; causes 1 and 2 tell the
partner. -/
def mcHalt (s : State) (cause : Nat) (r : HashRec) : State :=
  if mcHalted s then s
  else
    let s₁ := s.setBit aMcStat 31 true
    let s₂ := if s₁.bit aMcFirst0 31 then s₁
      else
        (((s₁.capture aMcFirst0 (BitVec.ofNat 32 (2 ^ 31 + cause * 2 ^ 16 + r.id.caller.val * 2 ^ 12 + r.id.die.val * 256 + r.id.ctx.val))).wr
          aMcFirst1 (BitVec.ofNat 32 (r.operator.toNat * 65536 + r.layer.toNat))).wr aMcFirst2 (BitVec.ofNat 32 r.pc.toNat)).wr
          aMcFirst3 (BitVec.ofNat 32 (r.id.cmpSeq.toNat * 65536 + r.id.step.toNat))
    let s₃ := if cause = 3 then s₂
      else lctlSend s₂ partnerPort (beatMsg s₂ 10 (BitVec.ofNat 8 cause :: hashIdBytes r.id)) false
    ((mcHoldAll s₃).report (contained 24 0x24 7 0 cause)).notify 4 (BitVec.ofNat 56 (0x10001 + 256 * cause)) []

/-- A hash meets the table (R384): an entry of the other side with its identity is compared and freed, otherwise the hash
waits in an entry. After a halt it is counted only. -/
def mcCompare (s : State) (own : Bool) (r : HashRec) : State :=
  if mcHalted s then s.count aMcStat 15 0 1
  else
    match s.mc.find? fun e => e.own ≠ own ∧ e.h.id = r.id with
    | some e =>
      let s₁ := { s with mc := s.mc.filter fun x => !(x.own ≠ own ∧ x.h.id = r.id) }
      if e.h.hash = r.hash then s₁.count aMcStat 15 0 1 else mcHalt s₁ 1 r
    | none =>
      if s.mc.any fun e => e.own = own ∧ e.h.id = r.id then s
      else { s with mc := s.mc ++ [{ own := own, h := r, entered := s.stampNs }] }

/-- An own hash: sent to the partner until it is acknowledged, and compared (R383, R384). -/
def mcSubmit (s : State) (r : HashRec) : State :=
  mcCompare (lctlSend s partnerPort (beatMsg s 8 (hashBytes r)) true) true r

/-- The table has no place for a hash whose partner's is not in it (R384). -/
def mcFull (s : State) (i : HashId) : Bool :=
  decide (s.mc.length ≥ 1024) && !s.mc.any fun e => e.own = false ∧ e.h.id = i

end Sys2Proof.Machine
end

