-- ==== Sys2Proof/Machine/Callers.lean ====
section
/-! DEFINITION. What every figure of a Caller goes through: arrival with its wait registration, launch conditions, refusal,
launch, acknowledgement, and the stop at a boundary (R112 to R133, R146 to R151). -/
namespace Sys2Proof.Machine

/-- The beat count as a die reads it (R72, R126). -/
def callerBeat (s : State) : Nat := s.beat.toNat - s.lag

/-- The die's Callers can launch: domain on, die in service or draining, and no fatal latch (R36, R485). -/
def dieRuns (s : State) (d : DieId) : Bool :=
  domOn s d && (s.fld (aTdState d) 2 0 = 2 || s.fld (aTdState d) 2 0 = 3) && !fatalLatched s

/-- The fetched figure at index `pc`. -/
def fetchedAt (q : Caller) (pc : BitVec 24) : Option (List Byte) := (q.fetched.find? fun x => x.1 = pc).map (·.2)

/-- The Caller is at its next figure: it fetches it, or it registers the wait the figure carries (R114, R138). A figure that
restarts at a page boundary has met its wait (R150). -/
def arrive (s : State) (d : DieId) (k : CallerId) : State :=
  let q := s.caller d k
  match q.ctx with
  | none => s
  | some c =>
    let cc := s.cc d k c
    match cc.pend, fetchedAt q cc.pc with
    | some e, _ => hold s d k c e
    | none, none => s.setCaller d k { q with st := .fetch, rel := false }
    | none, some f =>
      if figWaitEn f && !cc.relaunch then
        ((s.setCaller d k { q with st := .wait, rel := false }).setCc d k c { cc with waitReg := true }).send
          (.waitreg (figWaitIdx f) (figWaitThr f) c d k)
      else s.setCaller d k { q with st := .floor, rel := false }

/-- WAITCANCEL for a wait that the Caller has registered at its figure of a context (R138). -/
def cancelWait (s : State) (d : DieId) (k : CallerId) (c : CtxId) : State :=
  match (s.cc d k c).waitReg, fetchedAt (s.caller d k) (s.cc d k c).pc with
  | true, some f => s.send (.waitcancel (figWaitIdx f) d k)
  | _, _ => s

/-- A Caller's state for its context without the launch of a figure that waits for its Result, which has not launched for a
context switch (R54). -/
def unlaunched (q : Caller) (cc : CallerCtx) : CallerCtx :=
  match q.run with
  | some r =>
    if r.work = .result then
      { cc with anchor := r.pre.anchor, slip := r.pre.slip, cmpSeq := r.pre.cmpSeq, relaunch := r.pre.relaunch }
    else cc
  | none => cc

/-- The Caller takes a boundary of a context that stops: it stores its state, cancels its registered wait and becomes free
(R138, R149). -/
def takeBoundary (s : State) (d : DieId) (k : CallerId) : State :=
  let q := s.caller d k
  match q.ctx with
  | none => s
  | some c =>
    let cc := s.cc d k c
    let s₁ := cancelWait s d k c
    let s₂ := newWindow (s₁.setCc d k c { unlaunched q cc with waitReg := false }) d c
    freeHeat (s₂.setCaller d k
      { q with
        ctx := none
        st := .idle
        fetched := []
        rel := false
        stop := false
        run := none }) d k

/-- The Caller of a context holds at the first figure it has not launched for it: now, unless it is running one (R139,
R143, R220, R349). -/
def holdLater (s : State) (d : DieId) (k : CallerId) (c : CtxId) (e : Fin 16) : State :=
  if (s.caller d k).ctx = some c && (s.caller d k).run.isSome then s.setCc d k c { s.cc d k c with pend := some e }
  else hold s d k c e

/-- After a boundary: the Caller stops, holds after a mirror-compare halt (R384), or goes on to its next figure. -/
def settle (s : State) (d : DieId) (k : CallerId) : State :=
  let q := s.caller d k
  match q.ctx with
  | none => s
  | some c =>
    if (s.cc d k c).pend.isSome then arrive s d k
    else if q.stop then takeBoundary s d k
    else if mcHalted s then hold s d k c 0
    else arrive s d k

/-- The figure whose launch conditions all hold (R127): the Caller is at a fetched figure, its predecessor is acknowledged,
its wait is released, and the floor has come. A figure that restarts has no new floor (R150). -/
def canLaunch (s : State) (d : DieId) (k : CallerId) : Option (CtxId × List Byte) :=
  let q := s.caller d k
  match q.ctx with
  | none => none
  | some c =>
    let cc := s.cc d k c
    match fetchedAt q cc.pc with
    | none => none
    | some f =>
      if dieRuns s d && q.run.isNone && !q.stop && !cc.halted && !cc.held && (q.st = .floor || q.st = .wait) &&
          (cc.relaunch || !figWaitEn f || q.rel) && (cc.relaunch || cc.anchor.toNat + figOffset f ≤ callerBeat s)
        then some (c, f) else none

/-! ### Slip (R129) -/

def satCount (x : Nat) : Nat := min (x + 1) 1023

/-- The slip counters after a launch at `now` of a figure with floor `floor`: the cause is the condition met last, in the
order ACK, FETCH, WAIT where two are met last together. -/
def slipAfter (v : Slip) (q : Caller) (wait : Bool) (now floor : Nat) : Slip :=
  let slip := now - floor
  let v₁ : Slip :=
    { v with
      last := min slip (2 ^ 32 - 1)
      max := max v.max (min slip (2 ^ 32 - 1))
      sum := min (v.sum + slip) (2 ^ 32 - 1) }
  let a := q.ackBeat.toNat
  let f := q.fetchBeat.toNat
  let w := if wait then q.relBeat.toNat else 0
  if slip = 0 then { v₁ with floor := satCount v₁.floor }
  else if f ≤ a ∧ w ≤ a then { v₁ with ack := satCount v₁.ack }
  else if w ≤ f then { v₁ with fetch := satCount v₁.fetch }
  else { v₁ with wait := satCount v₁.wait }

/-- A context's slip counters on a Caller before the present beat counted in them, and what the beat has counted (R12). -/
def State.slipBeat (s : State) (d : DieId) (k : CallerId) (c : CtxId) : Slip × Slip :=
  (SMap.get (fun _ => none) s.now.slips (cctxNo d k c)).getD ((s.cc d k c).slip, {})

/-- The present beat counts a launch in the slip counters (R12). -/
def logSlip (s : State) (d : DieId) (k : CallerId) (c : CtxId) (count : Slip → Slip) : State :=
  let b := s.slipBeat d k c
  { s with now := { s.now with slips := SMap.set (fun _ => none) s.now.slips (cctxNo d k c) (some (b.1, count b.2)) } }

/-! ### Launch -/

/-- What every launch does: anchor, slip, heat class, counters, reel and progress (R100, R126, R128, R129, R133, R525, R530,
R535). The figure becomes the Caller's running one, with nothing left to do. -/
def startFigure (s : State) (d : DieId) (k : CallerId) (c : CtxId) (f : List Byte) : State :=
  let q := s.caller d k
  let cc := s.cc d k c
  let now := callerBeat s
  let r : Running :=
    { fig := f
      ctx := c
      win := ctxWindow s d c
      launch := s.beat
      step := s.rd64 (aHubCtxstep0 c)
      work := .done
      cmp := cc.cmpSeq
      pc := cc.pc
      newPc := cc.pc + 1
      pre := { anchor := cc.anchor, slip := cc.slip, cmpSeq := cc.cmpSeq, relaunch := cc.relaunch } }
  let cc₁ : CallerCtx :=
    { cc with
      anchor := if figReanchor f && !cc.relaunch then BitVec.ofNat 64 now else cc.anchor
      slip := if cc.relaunch then cc.slip else slipAfter cc.slip q (figWaitEn f) now (cc.anchor.toNat + figOffset f)
      cmpSeq := if figCmp f then cc.cmpSeq + 1 else cc.cmpSeq
      waitReg := false
      relaunch := false }
  let count (v : Slip) : Slip := slipAfter v q (figWaitEn f) now (cc.anchor.toNat + figOffset f)
  let s₁ := (newInterval (if cc.relaunch then s else logSlip s d k c count) d k c f cc.pc).setCc d k c cc₁
  let s₂ := s₁.setCaller d k { q with st := .running, run := some r, rel := false }
  progress (reelEvent (setHeat s₂ d k (figHeat f)) d recIssue k c cc.pc.toNat (figOp f) (figLayer f) (figOperator f)) d k

/-- The running figure changes. -/
def setRun (s : State) (d : DieId) (k : CallerId) (r : Running) : State :=
  s.setCaller d k { s.caller d k with run := some r }

/-- A launch command for class `op`: nothing where no figure can launch, a refusal where the figure fails R116, nothing
where the figure is of another class, and otherwise `go`. -/
def launch (s : State) (d : DieId) (k : CallerId) (op : Nat) (go : CtxId → List Byte → State) : State :=
  match canLaunch s d k with
  | none => s
  | some (c, f) =>
    match checkFigure f c with
    | some e => refuseFigure s d k c e
    | none => if figOp f = op then go c f else s

/-- The 64 bytes of the descriptor DP0 names, read at launch through the Caller-fetch class (R118): its address must lie in
the window, and a poisoned word fails the figure (R87, R88). -/
def readDesc (s : State) (d : DieId) (k : CallerId) (c : CtxId) (f : List Byte) : State × Option (List Byte) :=
  let a := figDp f 0
  let (s₁, ok) := sramAccess s d k c (ctxWindow s d c) masterFetch [(a, 64)]
  (s₁, if ok then some (s₁.bytes (sramPa d a) 64) else none)

/-- A refusal under R68: MODE_REJ and FIGERR 6. -/
def modeReject (s : State) (d : DieId) (k : CallerId) (c : CtxId) (f : List Byte) : State :=
  refuseFigure (numStat s d k c (figLayer f) (figOperator f) nfModeRej) d k c 6

/-- HUB_DETTAINT marks a context that launches a figure whose results can vary (R398). -/
def taint (s : State) (c : CtxId) : State :=
  if c.val < 32 then s.flag aHubDettaint0 c.val else s.flag aHubDettaint1 (c.val - 32)

/-! ### Acknowledgement -/

/-- The signal of an acknowledged figure: to the hub, or to the hub of module SIG_MOD (R117, R137, R143). -/
def sendSignal (s : State) (d : DieId) (k : CallerId) (c : CtxId) (f : List Byte) : State :=
  if !figSigEn f then s
  else if figSigRmt f && (figSigMod f).val ≠ ownModule s then
    xrequest s (figSigMod f)
      { kind := 0x03, m := Fin.ofNat 8 (ownModule s), tag := 0, addr := BitVec.ofNat 48 (figSigIdx f).val,
        inc := figSigInc f, ctx := BitVec.ofNat 8 c.val } (.signal d k c)
  else s.send (.signal (figSigIdx f) (figSigInc f) c d k)

/-- Identity of the running figure's hash (R382). -/
def cmpId (d : DieId) (k : CallerId) (r : Running) : HashId where
  ctx := r.ctx
  die := d
  caller := k
  step := r.step.truncate 16
  cmpSeq := r.cmp

/-- The hash goes to the compare table (R381, R384). -/
def submitHash (s : State) (d : DieId) (k : CallerId) (r : Running) (h : BitVec 64) : State :=
  mcSubmit s
    { id := cmpId d k r, pc := r.pc, layer := BitVec.ofNat 16 (figLayer r.fig), operator := BitVec.ofNat 16 (figOperator r.fig),
      hash := h }

/-- A CMP figure is hashed while mirror-compare runs (R380, R381). -/
def hashed (s : State) (r : Running) : Bool := figCmp r.fig && mcEnabled s

/-- The acknowledgement of the running figure: counters, reel, progress, signal and hash, then the Caller moves to the
figure's next PC, where prefetched figures stay only if that is the next in order (R112, R114, R117). -/
def ackFigure (s : State) (d : DieId) (k : CallerId) (r : Running) (mu vu : Nat) (h : Option (BitVec 64)) : State :=
  let s₁ := figCount (figCount s d k r.ctx cntMu mu) d k r.ctx cntVu vu
  let s₂ := reelEvent s₁ d recComplete k r.ctx r.pc.toNat (figOp r.fig) (figLayer r.fig) (figOperator r.fig)
  let s₃ := sendSignal (progress s₂ d k) d k r.ctx r.fig
  let s₄ := match h with | some v => submitHash s₃ d k r v | none => s₃
  let s₅ := { s₄ with remotes := s₄.remotes.filter fun m => m.what ≠ RemoteWhat.anchor d k r.ctx }
  let s₆ := newWindow (s₅.setCc d k r.ctx { s₅.cc d k r.ctx with pc := r.newPc, xfer := none, xlf := none }) d r.ctx
  let q := s₆.caller d k
  settle (s₆.setCaller d k
    { q with
      run := none
      ackBeat := BitVec.ofNat 64 (callerBeat s)
      fetched := if r.newPc = r.pc + 1 then q.fetched.filter fun x => x.1 ≠ r.pc else [] }) d k

/-- A figure that is acknowledged at its launch (WAIT, SIGNAL). -/
def ackAtLaunch (s : State) (d : DieId) (k : CallerId) : State :=
  match (s.caller d k).run with
  | none => s
  | some r => ackFigure s d k r 0 0 none

/-- The figure ends with the link-down error (R343, R349): not acknowledged, and its Caller holds at it. -/
def linkDownHold (s : State) (d : DieId) (k : CallerId) (c : CtxId) (port : Nat) : State :=
  (hold s d k c 0).report (contained d.val 0x06 2 port port)

end Sys2Proof.Machine
end

