-- ==== Sys2Proof/Machine/Reduce.lean ====
section
/-! DEFINITION. How a launched reduction goes on: the anchor exchange, accumulation, wide partials, write-back (R46 to R63,
R74 to R77, R81), and the flits of SEND (R98, R125). -/
namespace Sys2Proof.Machine

/-- The value posted for a local anchor (R51). -/
def anchorValue (a : Option Int) : BitVec 32 := match a with | none => 0x80000000 | some v => BitVec.ofInt 32 v

/-- The anchor a Result's value gives (R51). -/
def anchorOf (v : BitVec 32) : Option Int := if v = 0x80000000 then none else some v.toInt

/-- Cell, count and module of the anchor group that a descriptor names (R120, R123). -/
structure Group where
  cell : Nat
  parts : Nat
  mod : Nat
deriving DecidableEq, Repr

def MatDesc.group (m : MatDesc) : Group := ⟨m.cell, m.parts, m.cellMod⟩
def VecDesc.group (v : VecDesc) : Group := ⟨v.cell, v.parts, v.cellMod⟩

/-- The group of a running figure. -/
def groupOf (r : Running) : Group := if figOp r.fig = 1 then (matDesc r.desc).group else (vecDesc r.desc).group

/-- Fields of an A_POST in its 16 data bytes, in the order of R51 (log entry 13). -/
def postBytes (cell : Nat) (tag : BitVec 48) (index count : BitVec 8) (v : BitVec 32) : List Byte :=
  padTo 16 (BitVec.ofNat 8 cell :: leBytes 6 tag.toNat ++ [index, count] ++ leBytes 4 v.toNat)

def relBytes (cell : Nat) (tag : BitVec 48) (index : BitVec 8) : List Byte :=
  padTo 16 (BitVec.ofNat 8 cell :: leBytes 6 tag.toNat ++ [index])

/-- The participant index of a die in its figure's group: which it is the spec leaves open, within 0 to the count less 1 (R51,
R52, log entry 2). -/
def participant (s : State) (d : DieId) (r : Running) : BitVec 8 :=
  BitVec.ofNat 8 ((Config.participantIndex (ownModule s) d r.fig).toNat % (groupOf r).parts)

/-- A Post of a figure to its cell, in this module's hub or another's (R51, R56). -/
def postAnchor (s : State) (d : DieId) (k : CallerId) (r : Running) (v : BitVec 32) : State :=
  let g := groupOf r
  let tag := cellTag r.fig r.step
  let index := participant s d r
  if g.mod = ownModule s then s.send (.post (Fin.ofNat 256 g.cell) tag index (BitVec.ofNat 8 g.parts) v r.ctx d k)
  else
    xrequest s g.mod
      { kind := 0x04, m := Fin.ofNat 8 (ownModule s), tag := 0, len := 16,
        data := postBytes g.cell tag index (BitVec.ofNat 8 g.parts) v } (.anchor d k r.ctx)

/-- The Release once the global anchor is taken (R53). -/
def releaseAnchor (s : State) (d : DieId) (k : CallerId) (r : Running) : State :=
  let g := groupOf r
  let tag := cellTag r.fig r.step
  let index := participant s d r
  if g.mod = ownModule s then s.send (.anchorRelease (Fin.ofNat 256 g.cell) tag index r.ctx d k)
  else
    xrequest s g.mod
      { kind := 0x05, m := Fin.ofNat 8 (ownModule s), tag := 0, len := 16, data := relBytes g.cell tag index }
      (.anchor d k r.ctx)

/-- Flits of a figure join their entry's queue, the first of the set marked FIRST (R222), and take the places that are free. -/
def queueFlits (s : State) (e : Nat) (o : Origin) (payloads : List (List Byte)) : State :=
  placeEntry (s.setTxq e (s.txq e ++ (withIdx payloads).map fun p =>
    { entry := BitVec.ofNat 12 e, first := decide (p.1 = 0), payload := p.2, origin := some o })) e

/-- The launch a running figure is. -/
def originOf (d : DieId) (k : CallerId) (r : Running) : Origin := ⟨d, k, r.ctx, r.launch⟩

/-- Conditions of accumulators that leave the die unrounded (R67). -/
def stickyFl (as : List Acc) : NumFlags := if as.any (·.sticky) then nfTrunc else 0

/-- A MATMUL that holds its global anchor accumulates (R50, R76), and either queues its wide partials or waits for those it
expects (R121). Its operands are read now. -/
def matmulRun (s : State) (d : DieId) (k : CallerId) (r : Running) (anchor : Option Int) : State :=
  let m := matDesc r.desc
  let (s₁, ok) := sramCheck s d k r.ctx masterMatrix m.reads
  if !ok then s₁
  else if m.acc = 1 then
    let ps := matRelaxed s₁ d m
    if m.outMode = 1 && r.entryGone then refuseFigure s₁ d k r.ctx 4
    else if m.outMode = 1 then
      let ps := fp32Payloads (ps.map (·.bits))
      queueFlits (setRun s₁ d k { r with hash := some (mcHash ps.flatten), work := .done }) m.entry (originOf d k r) ps
    else setRun s₁ d k { r with fps := ps, work := .accum (m.expPartials * (m.m * m.n)) }
  else
    let as := matAccumulate s₁ d m anchor
    let r₁ : Running := { r with anchor := some anchor }
    if m.outMode = 1 && r.entryGone then refuseFigure s₁ d k r.ctx 4
    else if m.outMode = 1 then
      let ps := widePayloads anchor as
      queueFlits (setRun s₁ d k { r₁ with fl := r.fl ||| stickyFl as, hash := some (mcHash ps.flatten), work := .done }) m.entry
        (originOf d k r) ps
    else setRun s₁ d k { r₁ with accs := as, work := .accum (m.expPartials * (m.m * m.n)) }

/-- A spanning ROWMAX or SUMX that holds its global value (R63, R81). -/
def rowRun (s : State) (d : DieId) (k : CallerId) (r : Running) (v : BitVec 32) : State :=
  let x := vecDesc r.desc
  let (s₁, ok) := sramCheck s d k r.ctx masterVector x.reads
  if !ok then s₁
  else if x.op = 0x12 then
    let o := maxOut v.toInt
    let (s₂, ok) := sramElems s₁ d k r.ctx masterVector x.out (leBytes 4 o.bits.toNat)
    if ok then setRun s₂ d k { r with fl := r.fl ||| o.fl, work := .done } else s₂
  else
    let anchor := anchorOf v
    let a := sumAcc anchor (rowVals s₁ d x 0)
    if x.sends && r.entryGone then refuseFigure s₁ d k r.ctx 4
    else if x.sends then
      queueFlits (setRun s₁ d k { r with anchor := some anchor, fl := r.fl ||| stickyFl [a], work := .done }) x.entry
        (originOf d k r) (widePayloads anchor [a])
    else setRun s₁ d k { r with anchor := some anchor, accs := [a], work := .accum x.expPartials }

/-- The Result of a figure's cell reaches it: it takes the anchor, releases the cell and goes on (R53, R54). -/
def takeResult (s : State) (d : DieId) (k : CallerId) (r : Running) (v : BitVec 32) : State :=
  let s₁ := releaseAnchor s d k r
  if figOp r.fig = 1 then matmulRun s₁ d k r (anchorOf v) else rowRun s₁ d k r v

/-! ### Wide partials at the receiver (R57) -/

/-- Output elements of a figure that receives partials. -/
def partialSize (r : Running) : Nat := if figOp r.fig = 1 then (matDesc r.desc).m * (matDesc r.desc).n else 1

/-- A wide-partial flit is added, or discarded with CELL_ERR when its anchor, its count or its range is wrong. -/
def addWide (s : State) (d : DieId) (k : CallerId) (r : Running) (left : Nat) (payload : List Byte) : State :=
  let w := wideDecode payload
  if w.anchor ≠ anchorField (r.anchor.getD none) ∨ w.count = 0 ∨ w.count > 7 ∨ w.first + w.count > partialSize r then
    cellError s d k r.ctx r.fig
  else setRun s d k { r with accs := addFrom Acc.add w.first r.accs w.accs, work := .accum (left - w.count) }

/-- An FP32-partial flit of a RELAXED reduction (R61): the next 60 elements of its sender's tensor, added on arrival. -/
def addFp32 (s : State) (d : DieId) (k : CallerId) (r : Running) (left : Nat) (entry : BitVec 12) (payload : List Byte) : State :=
  let first := ((r.got.find? fun g => g.1 = entry).map (·.2)).getD 0
  let n := min 60 (partialSize r - first)
  let xs : List Fv := (List.range n).map fun i => ⟨BitVec.ofNat 32 (fieldAt payload (4 * i) 4), 0⟩
  setRun s d k { r with
    fps := addFrom addOvf first r.fps xs
    got := r.got.filter (fun g => g.1 ≠ entry) ++ [(entry, first + n)]
    work := .accum (left - n) }

/-- The figure of a die that takes a PARTIAL flit of a context: its lowest Caller that accumulates and still expects
elements (log entry 14). -/
def partialTaker (s : State) (d : DieId) (c : Nat) : Option (CallerId × Running × Nat) :=
  (List.finRange 4).findSome? fun k =>
    match (s.caller d k).run with
    | none => none
    | some r => match r.work with
      | .accum n => if r.ctx.val = c ∧ n > 0 then some (k, r, n) else none
      | _ => none

/-- A PARTIAL flit's payload at the figure that takes it. -/
def takePartial (s : State) (d : DieId) (k : CallerId) (r : Running) (left : Nat) (entry : BitVec 12) (payload : List Byte) :
    State :=
  if figOp r.fig = 1 ∧ (matDesc r.desc).acc = 1 then addFp32 s d k r left entry payload else addWide s d k r left payload

/-! ### Completion -/

/-- The output of a reduction is rounded and written (R58, R77, R81). -/
def writeOutput (s : State) (d : DieId) (k : CallerId) (r : Running) : State × Option Running :=
  if figOp r.fig = 1 then
    let m := matDesc r.desc
    let seed := rndSeed s r.ctx m.rnd r.entropy
    let (bs, fl) := if m.acc = 1 then relaxedWriteBack m seed r.step r.fps
      else matWriteBack m (r.anchor.getD none) seed r.step r.accs
    let (s₁, ok) := sramElems s d k r.ctx masterMatrix m.out bs
    (s₁, if ok then some { r with fl := r.fl ||| fl, work := .done } else none)
  else
    let x := vecDesc r.desc
    let o := sumOut (r.accs.headD {}) (r.anchor.getD none) (if x.fout = .bf16 then 8 else 24)
    let (s₁, ok) := sramElems s d k r.ctx masterVector x.out (packElems x.fout [outElem x.fout o.bits])
    (s₁, if ok then some { r with fl := r.fl ||| o.fl, work := .done } else none)

/-- The bytes that a CMP figure's hash covers (R381), for the classes that write SRAM. -/
def hashedBytes (s : State) (d : DieId) (r : Running) : List Byte :=
  let sram (w : Nat × Nat) := s.bytes (sramPa d w.1) w.2
  match figOp r.fig with
  | 1 => (matDesc r.desc).writes.flatMap sram
  | 2 => (vecDesc r.desc).writes.flatMap sram
  | 6 => (sampDesc r.desc).writes.flatMap sram
  | 5 => s.bytes (sramPa d (sendDesc r.desc).src) (sendDesc r.desc).len
  | 3 | 4 =>
    let x := xferDesc r.desc
    let rows := (List.range x.rows).map fun i => ((x.elSram + i * x.sramStride) % 2 ^ 27, x.rowBytes)
    (if x.scSram < x.elSram then (x.scSram, x.scBytes) :: rows else rows ++ [(x.scSram, x.scBytes)]).flatMap sram
  | _ => []

/-! ### SEND (R90, R98, R125) -/

/-- Mover tags in use on a die (R90). -/
def tagsInUse (s : State) (d : DieId) : List (Fin 256) :=
  ((s.segs.filter fun g => g.die = d).filterMap (·.tag)) ++
    (List.finRange 4).filterMap fun k => (s.caller d k).run.bind (·.sendTag)

/-- A Caller's transfer has segments, or a SEND, for which it may still want a tag. -/
def wantsTag (s : State) (n : Nat) : Bool :=
  match (s.caller (Fin.ofNat 12 (n / 4)) (Fin.ofNat 4 (n % 4))).run with
  | none => false
  | some r => match r.work with
    | .xfer next failed stopped => !stopped && failed.isNone && decide (next < (segments (xferDesc r.desc)).length)
    | .send _ => r.sendTag.isNone
    | _ => false

/-- Callers of a die whose transfers wait for a shared tag, oldest request first. -/
def tagQueue (s : State) (d : DieId) : List Nat := s.tagWait.filter fun n => n / 4 = d.val && wantsTag s n

/-- The tag that a transfer of a Caller takes (R90): the lowest free of its 32, otherwise the lowest free shared one, which goes
to the oldest request. -/
def freeTag (s : State) (d : DieId) (k : CallerId) : Option (Fin 256) :=
  let used := tagsInUse s d
  let free (lo n : Nat) : Option Nat := ((List.range n).map (lo + ·)).find? fun t => !used.any fun u => u.val = t
  match free (32 * k.val) 32 with
  | some t => some (Fin.ofNat 256 t)
  | none => if (tagQueue s d).headD (callerNo d k) = callerNo d k then (free 128 128).map (Fin.ofNat 256) else none

/-- A transfer that finds no tag waits in the order of requests; one that takes a tag waits no more (R90). -/
def waitTag (s : State) (d : DieId) (k : CallerId) : State :=
  if (tagQueue s d).contains (callerNo d k) then s
  else { s with tagWait := s.tagWait.filter (· ≠ callerNo d k) ++ [callerNo d k] }

def tookTag (s : State) (d : DieId) (k : CallerId) : State := { s with tagWait := s.tagWait.filter (· ≠ callerNo d k) }

/-! The eight movers of a die (R191): a transfer is carried by one mover from its assignment until it gives its tag back; segments
that wait take a mover before SENDs that wait (log entry 71). -/

/-- The lowest mover of a die that carries nothing. -/
def freeMover (s : State) (d : DieId) : Option (Fin 8) :=
  let busy := ((s.segs.filter fun g => g.die = d).filterMap (·.mover)) ++
    (List.finRange 4).filterMap fun k => (s.caller d k).run.bind (·.mover)
  (List.finRange 8).find? fun m => !busy.contains m

/-- The lowest free mover takes the oldest transfer that waits for one. -/
def assignMover (s : State) (d : DieId) : State :=
  match freeMover s d with
  | none => s
  | some m =>
    match s.segs.find? fun g => g.die = d && g.tag.isSome && g.mover.isNone with
    | some g => { s with segs := s.segs.map fun x => if x = g then { g with mover := some m } else x }
    | none =>
      match (List.finRange 4).findSome? fun k => match (s.caller d k).run with
          | some r => if r.sendTag.isSome && r.mover.isNone then some (k, r) else none
          | none => none with
      | some (k, r) => s.setCaller d k { s.caller d k with run := some { r with mover := some m } }
      | none => s

def assignMovers (s : State) (d : DieId) : State := (List.range 8).foldl (fun s _ => assignMover s d) s

/-- The high-water mark of tags (R108). -/
def countTags (s : State) (d : DieId) : State := s.highWater (aTdMvstat d) 24 16 (tagsInUse s d).length

/-- Flits of a SEND's payload. -/
def sendFlits (v : SendDesc) : Nat := (v.len + 239) / 240

/-- One payload flit read from SRAM into the place that it takes at port position `q`; a poisoned word fails the figure (R88). -/
def readFlit (s : State) (d : DieId) (k : CallerId) (r : Running) (v : SendDesc) (i : Nat) (q : Fin 128) : State × Bool :=
  let n := min 240 (v.len - 240 * i)
  let (s₁, ok) := sramCheck s d k r.ctx masterMover [(v.src + 240 * i, n)]
  if ok then
    (s₁.setTxq v.entry (s₁.txq v.entry ++
      [{ entry := BitVec.ofNat 12 v.entry, first := decide (i = 0), payload := padTo 240 (s₁.bytes (sramPa d (v.src + 240 * i)) n),
         plen := n, ports := BitVec.ofNat 8 v.ports, origin := some (originOf d k r), place := some q }]), true)
  else (s₁, false)

/-- A mover fills the buffer places that are free with the SEND's next payload flits (R98). -/
def fillSend (d : DieId) (k : CallerId) (v : SendDesc) : Nat → State → State
  | 0, s => s
  | fuel + 1, s =>
    match (s.caller d k).run with
    | none => s
    | some r => match r.work with
      | .send next =>
        if r.mover.isSome ∧ next < sendFlits v then
          match freePort s v.entry (BitVec.ofNat 8 v.ports) with
          | none => s
          | some q =>
            match readFlit s d k r v next q with
            | (s₁, true) => fillSend d k v fuel (setRun s₁ d k { r with work := .send (next + 1) })
            | (s₁, false) => s₁
        else s
      | _ => s

/-- A SEND takes its tag if it has none, and its mover fills its free places. -/
def pumpSend (s : State) (d : DieId) (k : CallerId) : State :=
  match (s.caller d k).run with
  | none => s
  | some r =>
    if figOp r.fig ≠ 5 then s
    else
      let v := sendDesc r.desc
      match r.sendTag with
      | some _ => fillSend d k v 256 (assignMovers s d)
      | none =>
        match freeTag s d k with
        | none => waitTag s d k
        | some t => fillSend d k v 256 (assignMovers (countTags (setRun (tookTag s d k) d k { r with sendTag := some t }) d) d)

end Sys2Proof.Machine
end

