-- ==== Sys2Proof/Machine/Figures.lean ====
section
/-! DEFINITION. The launches of the ten opcode classes, the fetch of figures and their acknowledgement (R112 to R133). -/
namespace Sys2Proof.Machine

/-- FIGURE_FETCH (R114): the figure `ahead` places after PC, from the table the step uses; without a table a single HALT
(R158). A prefetch outside the window is not issued, and one that meets a poisoned word is not kept; the fetch of the next
figure to launch is subject to R87 and R88. -/
def fetchFigure (s : State) (d : DieId) (k : CallerId) (ahead : Nat) : State :=
  let q := s.caller d k
  match q.ctx with
  | none => s
  | some c =>
    let cc := s.cc d k c
    let i := cc.pc + BitVec.ofNat 24 ahead
    let a := getF cc.table 26 0 / 32 * 32 + 32 * i.toNat
    let put (s : State) (f : List Byte) : State :=
      let s₁ := s.setCaller d k { s.caller d k with fetched := q.fetched ++ [(i, f)] }
      if ahead = 0 then arrive (s₁.setCaller d k { s₁.caller d k with fetchBeat := BitVec.ofNat 64 (callerBeat s) }) d k else s₁
    if !dieRuns s d || (ahead = 0 && (q.run.isSome || q.st ≠ .fetch)) || q.st = .halted || q.st = .held || q.st = .idle ||
        (fetchedAt q i).isSome then s
    else if !cc.table.getLsbD 31 then (if i = 0 then put s (haltFigure c) else s)
    else if ahead = 0 then
      match sramAccess s d k c (ctxWindow s d c) masterFetch [(a, 32)] with
      | (s₁, true) => put s₁ (s₁.bytes (sramPa d a) 32)
      | (s₁, false) => s₁
    else if windowOk s d (ctxWindow s d c) a 32 && (s.eccScan (sramPa d a) 32).2.isNone then
      match sramCheck s d k c masterFetch [(a, 32)] with
      | (s₁, _) => put s₁ (s₁.bytes (sramPa d a) 32)
    else s

def execFigureFetch (d : DieId) (k : CallerId) (ahead : Fin 5) (s : State) : Host.Outcome State Fault Refusal :=
  .next (fetchFigure s d k ahead.val)

/-- MATMUL's launch (R74, R76, R120, R121): checks, then the local anchor is posted, or a group of one accumulates at once. -/
def goMatmul (s : State) (d : DieId) (k : CallerId) (entropy : BitVec 64) (c : CtxId) (f : List Byte) : State :=
  match readDesc s d k c f with
  | (s₁, none) => s₁
  | (s₁, some b) =>
    let m := matDesc b
    if detStrict s₁ && (m.acc = 1 || m.rnd = 2) then modeReject s₁ d k c f
    else match checkMat b with
    | some e => refuseFigure s₁ d k c e
    | none =>
      if m.outMode = 1 && entryRefused s₁ m.entry kindPartial c d 0 then refuseFigure s₁ d k c 4
      else
        let s₂ := if m.acc = 1 || m.rnd = 2 then taint s₁ c else s₁
        let s₃ := startFigure s₂ d k c f
        if !(m.reads ++ m.writes).all fun w => windowOk s₃ d (ctxWindow s₃ d c) w.1 w.2 then windowFault s₃ d k c
        else
          match (s₃.caller d k).run with
          | none => s₃
          | some r₀ =>
            let r : Running := { r₀ with desc := b, entropy := entropy }
            let s₄ := setRun s₃ d k r
            if m.acc = 1 ∨ m.parts = 1 then matmulRun s₄ d k r (matAnchor s₄ d m)
            else
              match sramCheck s₄ d k c masterMatrix m.reads with
              | (s₅, false) => s₅
              | (s₅, true) => postAnchor (setRun s₅ d k { r with work := .result }) d k r (anchorValue (matAnchor s₅ d m))

def execMatmul (d : DieId) (k : CallerId) (entropy : BitVec 64) (s : State) : Host.Outcome State Fault Refusal :=
  .next (launch s d k 1 (goMatmul s d k entropy))

/-- Ranges that a VECMAP writes, word by word for a SCATTER. -/
def vecWrites (s : State) (d : DieId) (v : VecDesc) : List (Nat × Nat) :=
  if v.op = 0x19 then
    ((List.range v.len).filter fun i => idxOk v (idxAt s d v i)).map fun i =>
      (v.out + (idxAt s d v i).toNat * v.fin.width / 8, v.fin.width / 8)
  else v.writes

/-- VECMAP's launch (R78 to R81, R123). -/
def goVecmap (s : State) (d : DieId) (k : CallerId) (c : CtxId) (f : List Byte) : State :=
  match readDesc s d k c f with
  | (s₁, none) => s₁
  | (s₁, some b) =>
    let v := vecDesc b
    match checkVec b with
    | some e => refuseFigure s₁ d k c e
    | none =>
      if v.sends && entryRefused s₁ v.entry kindPartial c d 0 then refuseFigure s₁ d k c 4
      else
        let s₂ := startFigure s₁ d k c f
        let win := ctxWindow s₂ d c
        if !(vecReads s₂ d v ++ vecWrites s₂ d v).all fun w => windowOk s₂ d win w.1 w.2 then windowFault s₂ d k c
        else
          match (s₂.caller d k).run with
          | none => s₂
          | some r₀ =>
            let r : Running := { r₀ with desc := b }
            let s₃ := setRun s₂ d k r
            match sramCheck s₃ d k c masterVector (vecReads s₃ d v) with
            | (s₄, false) => s₄
            | (s₄, true) =>
              if v.parts ≥ 2 then
                let xs := rowVals s₄ d v 0
                let p := if v.op = 0x12 then BitVec.ofInt 32 (rowMaxKey xs) else anchorValue (sumAnchor xs)
                postAnchor (setRun s₄ d k { r with work := .result }) d k r p
              else if v.op = 0x13 ∧ (v.sends ∨ v.expPartials ≠ 0) then
                -- a group of one that exchanges partials needs no cell
                rowRun s₄ d k r (anchorValue (sumAnchor (rowVals s₄ d v 0)))
              else
                let o := vecRun s₄ d k c v (s₄.rd64 (aHubCtxrseed0 c)) r.step
                let s₅ := if o.ix then o.st.flag (aTdUnitstat d) 2 else o.st
                if o.ok then setRun s₅ d k { r with fl := o.fl } else s₅

def execVecmap (d : DieId) (k : CallerId) (s : State) : Host.Outcome State Fault Refusal :=
  .next (launch s d k 2 (goVecmap s d k))

/-- Restart point of a transfer: the segment its in-flight record names, if the record is of this descriptor (R150, R200). -/
def xferStart (cc : CallerCtx) (b : List Byte) : Nat :=
  match cc.xfer with | some x => if x.desc = b then x.seg else 0 | none => 0

/-- The fault record of a Caller clears when the figure it holds relaunches (R203). -/
def clearXlf (s : State) (d : DieId) (k : CallerId) (c : CtxId) : State :=
  let a := aHubXlf1 (callerNo d k)
  let s₁ := s.setCc d k c { s.cc d k c with xlf := none }
  if s₁.bit a 31 && s₁.fld a 21 16 = c.val then s₁.setBit a 31 false else s₁

/-- The launch of MOVE and STREAM (R87, R188, R189, R191): a STREAM's destinations are checked against the window here. -/
def goXfer (s : State) (d : DieId) (k : CallerId) (stream : Bool) (c : CtxId) (f : List Byte) : State :=
  let go (s₁ : State) (b : List Byte) : State :=
    let x := xferDesc b
    match checkXfer b stream with
    | some e => refuseFigure s₁ d k c e
    | none =>
      if x.entry ≠ 0 && entryRefused s₁ x.entry (if stream then kindStream else kindMemory) c d 0 then refuseFigure s₁ d k c 4
      else if stream && !(x.ranges true).all fun w => inWindow (ctxWindow s₁ d c) w.1 w.2 then windowFault s₁ d k c
      else
        let start := xferStart (s₁.cc d k c) b
        let s₂ := clearXlf (startFigure s₁ d k c f) d k c
        match (s₂.caller d k).run with
        | none => s₂
        | some r => setRun s₂ d k { r with desc := b, work := .xfer start none false }
  -- a figure that restarts uses the descriptor of its in-flight record (R150)
  match (s.cc d k c).relaunch, (s.cc d k c).xfer with
  | true, some x => go s x.desc
  | _, _ =>
    match readDesc s d k c f with
    | (s₁, none) => s₁
    | (s₁, some b) => go s₁ b

def execMove (d : DieId) (k : CallerId) (s : State) : Host.Outcome State Fault Refusal :=
  .next (launch s d k 3 (goXfer s d k false))

def execStream (d : DieId) (k : CallerId) (s : State) : Host.Outcome State Fault Refusal :=
  .next (launch s d k 4 (goXfer s d k true))

/-- SEND's launch (R90, R98, R125, R221). -/
def goSend (s : State) (d : DieId) (k : CallerId) (c : CtxId) (f : List Byte) : State :=
  match readDesc s d k c f with
  | (s₁, none) => s₁
  | (s₁, some b) =>
    let v := sendDesc b
    match checkSend b with
    | some e => refuseFigure s₁ d k c e
    | none =>
      if entryRefused s₁ v.entry kindData c d v.ports then refuseFigure s₁ d k c 4
      else
        let s₂ := startFigure s₁ d k c f
        if !windowOk s₂ d (ctxWindow s₂ d c) v.src v.len then windowFault s₂ d k c
        else
          match (s₂.caller d k).run with
          | none => s₂
          | some r => pumpSend (setRun s₂ d k { r with desc := b, work := .send 0 }) d k

def execSend (d : DieId) (k : CallerId) (s : State) : Host.Outcome State Fault Refusal :=
  .next (launch s d k 5 (goSend s d k))

/-- SAMPLE's launch (R68, R93 to R96, R124): the selection is written; TD_UNITSTAT takes SU_NAN, SU_EMPTY and SU_DUP. -/
def goSample (s : State) (d : DieId) (k : CallerId) (entropy : BitVec 64) (c : CtxId) (f : List Byte) : State :=
  match readDesc s d k c f with
  | (s₁, none) => s₁
  | (s₁, some b) =>
    let v := sampDesc b
    if v.entropy && detStrict s₁ then modeReject s₁ d k c f
    else match checkSamp b with
    | some e => refuseFigure s₁ d k c e
    | none =>
        let s₂ := startFigure (if v.entropy then taint s₁ c else s₁) d k c f
        let win := ctxWindow s₂ d c
        if !(v.reads ++ v.writes).all fun w => windowOk s₂ d win w.1 w.2 then windowFault s₂ d k c
        else
          match (s₂.caller d k).run with
          | none => s₂
          | some r =>
            match sramCheck (setRun s₂ d k { r with desc := b, entropy := entropy }) d k c masterSampling v.reads with
            | (s₃, false) => s₃
            | (s₃, true) =>
              let (bs, nan, empty, dup) := sampRun s₃ d v (if v.entropy then entropy else s₃.rd64 (aHubCtxsseed0 c)) r.step
              let s₄ := if nan then s₃.flag (aTdUnitstat d) 3 else s₃
              let s₅ := if empty then s₄.flag (aTdUnitstat d) 4 else s₄
              let s₆ := if dup then s₅.flag (aTdUnitstat d) 5 else s₅
              (sramWrite s₆ d k c masterSampling v.out bs).1

def execSample (d : DieId) (k : CallerId) (entropy : BitVec 64) (s : State) : Host.Outcome State Fault Refusal :=
  .next (launch s d k 6 (goSample s d k entropy))

/-- WAIT: nothing beyond its wait, acknowledged at launch (R117). -/
def execWait (d : DieId) (k : CallerId) (s : State) : Host.Outcome State Fault Refusal :=
  .next (launch s d k 7 fun c f => ackAtLaunch (startFigure s d k c f) d k)

/-- SIGNAL: nothing beyond its signal, acknowledged at launch (R117). -/
def execSignal (d : DieId) (k : CallerId) (s : State) : Host.Outcome State Fault Refusal :=
  .next (launch s d k 8 fun c f => ackAtLaunch (startFigure s d k c f) d k)

/-- Fields of SKIP_IF (R131). -/
def skipTarget (f : List Byte) : BitVec 24 := BitVec.ofNat 24 (figDp f 0)
def skipObj (f : List Byte) : ObjId := Fin.ofNat 4096 (bits (figDp f 1) 11 0)
def skipVal (f : List Byte) : BitVec 20 := BitVec.ofNat 20 (bits (figDp f 1) 31 12)

/-- The condition of a SKIP_IF on value `x` (R131). -/
def skipTaken (f : List Byte) (sat : Bool) (x : BitVec 20) : Bool :=
  match bits (figDp f 2) 1 0 with
  | 0 => x = skipVal f
  | 1 => x ≠ skipVal f
  | 2 => waitMet sat x (skipVal f)
  | _ => !waitMet sat x (skipVal f)

/-- SKIP_IF's launch: a target outside the window is refused, otherwise the object is read (R131). -/
def goSkip (s : State) (d : DieId) (k : CallerId) (c : CtxId) (f : List Byte) : State :=
  let base := getF (s.cc d k c).table 26 0 / 32 * 32
  if !windowOk s d (ctxWindow s d c) (base + 32 * (skipTarget f).toNat) 32 then refuseFigure s d k c 5
  else
    let s₁ := startFigure s d k c f
    match (s₁.caller d k).run with
    | none => s₁
    | some r => (setRun s₁ d k { r with work := .value }).send (.read (skipObj f) c d k)

def execSkipIf (d : DieId) (k : CallerId) (s : State) : Host.Outcome State Fault Refusal :=
  .next (launch s d k 9 (goSkip s d k))

/-- A context that runs on no Caller, its step still in progress, is READY (R145). -/
def readyOffCallers (s : State) (c : CtxId) : State :=
  if ctxState s c = ctxRunning && onCall s c = 0 then setCtxState s c ctxReady else s

/-- HALT: the Caller's part of the step ends and the Caller is free (R146, R147). It never signals. -/
def goHalt (s : State) (d : DieId) (k : CallerId) (c : CtxId) (f : List Byte) : State :=
  let s₁ := startFigure s d k c f
  let s₂ := s₁.setCc d k c { s₁.cc d k c with halted := true }
  let s₃ := s₂.setCaller d k { s₂.caller d k with st := .halted, run := none, fetched := [] }
  readyOffCallers (freeHeat s₃ d k) c

def execHalt (d : DieId) (k : CallerId) (s : State) : Host.Outcome State Fault Refusal :=
  .next (launch s d k 10 (goHalt s d k))

/-- The TOKEN of a SAMPLE with RETURN set (R96, R431). -/
def sendToken (s : State) (d : DieId) (k : CallerId) (r : Running) : State :=
  let v := sampDesc r.desc
  if figOp r.fig = 6 && v.ret then
    s.emit (.token (ctxChan s r.ctx) r.ctx r.step (s.bytes (sramPa d v.out) 16) (BitVec.ofNat 32 v.tensor)
      (BitVec.ofNat 32 v.row) d k (BitVec.ofNat 16 (figLayer r.fig)) (BitVec.ofNat 16 (figOperator r.fig)))
  else s

/-- Segments of the running transfer that are issued and not complete. -/
def segsLeft (s : State) (d : DieId) (k : CallerId) (c : CtxId) : Nat :=
  (s.segs.filter fun g => g.die = d ∧ g.caller = k ∧ g.ctx = c).length

/-- The hash of the running figure, for the classes that have one at their acknowledgement (R381). -/
def ackHash (s : State) (d : DieId) (r : Running) : Option (BitVec 64) :=
  if !hashed s r then none
  else match r.hash with
    | some h => some h
    | none => some (mcHash (hashedBytes s d r))

/-- The figure is complete: conditions recorded, TOKEN, hash; while the compare table is full a CMP figure waits (R384). -/
def finishFigure (s : State) (d : DieId) (k : CallerId) (r : Running) (mu vu : Nat) : State :=
  if hashed s r && mcFull s (cmpId d k r) then setRun s d k r
  else
    let s₁ := numStat s d k r.ctx (figLayer r.fig) (figOperator r.fig) r.fl
    ackFigure (sendToken s₁ d k r) d k r mu vu (ackHash s d r)

/-- Walks of a Caller's transfer that are in flight raise nothing once it has stopped (R201). -/
def quietWalks (s : State) (d : DieId) (r : Running) : State :=
  let x := xferDesc r.desc
  let mine (w : Walk) : Bool := w.ctx = r.ctx && (w.tlb.val = d.val || (12 ≤ w.tlb.val && (w.tlb.val - 12) / 8 = d.val / 3)) &&
    (segments x).any fun p => BitVec.ofNat 27 (p.va / 0x200000) = w.vpn
  { s with walks := s.walks.map fun w => if mine w then { w with quiet := true } else w }

/-- A MOVE or STREAM that stopped at a page boundary takes that boundary: its record holds the first segment not completed
(R150). -/
def stopXfer (s : State) (d : DieId) (k : CallerId) (r : Running) (next : Nat) : State :=
  let s₁ := (quietWalks s d r).setCc d k r.ctx { s.cc d k r.ctx with xfer := some { desc := r.desc, seg := next }, relaunch := true }
  takeBoundary (s₁.setCaller d k { s₁.caller d k with run := none }) d k

/-- FIGURE_ACK (R77, R117): the running figure is acknowledged once all it had to do is done. -/
def figureAck (s : State) (d : DieId) (k : CallerId) (mu vu : Nat) : State :=
  match (s.caller d k).run with
  | none => s
  | some r =>
    if fatalLatched s then s
    else match r.work with
    | .done =>
      if figOp r.fig = 1 && (matDesc r.desc).outMode = 1 && !flitsPlaced s (matDesc r.desc).entry (originOf d k r) then s
      else if figOp r.fig = 2 && (vecDesc r.desc).sends && !flitsPlaced s (vecDesc r.desc).entry (originOf d k r) then s
      else finishFigure s d k r mu vu
    | .accum 0 =>
      match writeOutput s d k r with
      | (s₁, some r₁) => finishFigure s₁ d k r₁ mu vu
      | (s₁, none) => s₁
    | .xfer next failed _ =>
      if failed.isSome || segsLeft s d k r.ctx ≠ 0 then s
      else if next ≥ (segments (xferDesc r.desc)).length then finishFigure s d k r mu vu
      else if (s.caller d k).stop then stopXfer s d k r next
      else s
    | .send next =>
      if next ≥ sendFlits (sendDesc r.desc) ∧ flitsOf s (originOf d k r) = 0 then finishFigure s d k r mu vu else s
    | _ => s

def execFigureAck (d : DieId) (k : CallerId) (muBusy vuBusy : Nat) (s : State) : Host.Outcome State Fault Refusal :=
  .next (figureAck s d k muBusy vuBusy)

/-- The lead holds the context's next step until its copy is made (R377). -/
def copyHolds (s : State) (c : CtxId) : Bool := match s.copyOp with | some o => o.hold.contains c | none => false

/-- A Caller leaves the context it has halted or holds in: it cancels a registered wait (R138). -/
def leaveContext (s : State) (d : DieId) (k : CallerId) : State :=
  match (s.caller d k).ctx with
  | none => s
  | some c => (cancelWait s d k c).setCc d k c { s.cc d k c with waitReg := false }

/-- CONTEXT_SWITCH (R147, R148): a free Caller takes the oldest entry of its run queue. A Caller that has launched HALT in
the step in progress stays HALTED, and one that holds for the context stays HELD: either is free again. -/
def contextSwitch (s : State) (d : DieId) (k : CallerId) : State :=
  let q := s.caller d k
  match q.queue with
  | [] => s
  | c :: rest =>
    if !callerFree q || !dieRuns s d || copyHolds s c then s
    else
      let s₁ := partInterval (leaveContext s d k) d k
      let idles := (s.cc d k c).halted || (s.cc d k c).held
      let q₁ : Caller :=
        { q with
          ctx := some c
          queue := rest
          fetched := []
          rel := false
          stop := false
          run := none
          ackBeat := BitVec.ofNat 64 (callerBeat s)
          st := if (s.cc d k c).halted then .halted else if (s.cc d k c).held then .held else .fetch }
      let s₂ := s₁.setCaller d k q₁
      let s₃ := if ctxState s₂ c = ctxReady then setCtxState s₂ c ctxRunning else s₂
      if idles then freeHeat s₃ d k else if (s.cc d k c).pend.isSome then arrive s₃ d k else s₃

def execContextSwitch (d : DieId) (k : CallerId) (s : State) : Host.Outcome State Fault Refusal :=
  .next (contextSwitch s d k)

/-- The step of a context is over (R146): every Caller of its die set has launched HALT and no transfer is outstanding. -/
def stepOver (s : State) (c : CtxId) : Bool :=
  (ctxState s c = ctxRunning || ctxState s c = ctxReady) &&
    (ctxCallers s c).all (fun p => (s.cc p.1 p.2 c).halted) && !s.segs.any fun g => g.ctx = c

/-- STEP_END (R146): the step counter goes up by 1 and the host is told. -/
def execStepEnd (c : CtxId) (s : State) : Host.Outcome State Fault Refusal :=
  .next (if stepOver s c && !fatalLatched s then
    let step := s.rd64 (aHubCtxstep0 c)
    let s₁ := { s with copyOp := s.copyOp.map fun (o : CopyOp) =>
      if o.stepping && !o.done.contains c then { o with hold := o.hold ++ [c] } else o }
    (setCtxState (s₁.wr64 (aHubCtxstep0 c) (step + 1)) c ctxIdle).toHost (.stepDone (ctxChan s c) c step s.beat)
  else s)

end Sys2Proof.Machine
end

