-- ==== Sys2Proof/Machine/Sync.lean ====
section
/-! DEFINITION. Messages to and from sync objects and anchor cells (R51 to R57, R131 to R143, R323). -/
namespace Sys2Proof.Machine

/-- The Caller that sent a message to the hub's sync objects. -/
def syncSender : Msg → Option (DieId × CallerId)
  | .signal _ _ _ d k | .waitreg _ _ _ d k | .waitcancel _ d k | .read _ _ d k => some (d, k)
  | _ => none

/-- The messages of one Caller are applied in the order in which it sent them (R137): `m` is the oldest of its messages in
transit, or none of them is. -/
def inTurn (s : State) (m : Msg) : Bool :=
  match s.net.find? fun x => syncSender x = syncSender m with
  | none => true
  | some x => x = m

/-- A message of a Caller to a sync object arrives: nothing happens before its turn. -/
def onTurn (s : State) (m : Msg) (go : State → State) : State := if inTurn s m then go (s.take m) else s

/-- SYNC_SIGNAL (R135, R137, R139). -/
def execSyncSignal (obj : ObjId) (inc : BitVec 8) (c : CtxId) (d : DieId) (k : CallerId) (s : State) :
    Host.Outcome State Fault Refusal :=
  .next (onTurn s (.signal obj inc c d k) fun s₁ =>
    if syncAllowed s₁ obj c then applySignal s₁ obj inc else refuseSync s₁ .signal obj c d k)

/-- WAITREG (R137 to R139). -/
def execWaitreg (obj : ObjId) (thr : BitVec 20) (c : CtxId) (d : DieId) (k : CallerId) (s : State) :
    Host.Outcome State Fault Refusal :=
  .next (onTurn s (.waitreg obj thr c d k) fun s₁ =>
    if syncAllowed s₁ obj c then registerWait s₁ (callerSlot d k) obj thr c else refuseSync s₁ .waitreg obj c d k)

/-- WAITCANCEL (R137, R139): never refused. -/
def execWaitcancel (obj : ObjId) (d : DieId) (k : CallerId) (s : State) : Host.Outcome State Fault Refusal :=
  .next (onTurn s (.waitcancel obj d k) fun s₁ => freeWaiter s₁ (callerSlot d k) obj)

/-- READ (R132, R137, R139). -/
def execRead (obj : ObjId) (c : CtxId) (d : DieId) (k : CallerId) (s : State) : Host.Outcome State Fault Refusal :=
  .next (onTurn s (.read obj c d k) fun s₁ =>
    if syncAllowed s₁ obj c then sendValue (syncRead s₁ obj) (.value obj c d k (syncVal s₁ obj))
    else refuseSync s₁ .read obj c d k)

/-- The Caller waits at a figure of context `c` for a release of `obj`. -/
def waitsFor (s : State) (obj : ObjId) (c : CtxId) (d : DieId) (k : CallerId) : Bool :=
  let q := s.caller d k
  q.ctx = some c && q.st = .wait &&
    match fetchedAt q (s.cc d k c).pc with | some f => figWaitIdx f = obj | none => false

/-- SYNC_RELEASE (R127, R138): a release for a context that the Caller no longer runs is discarded. -/
def execSyncRelease (obj : ObjId) (c : CtxId) (d : DieId) (k : CallerId) (s : State) : Host.Outcome State Fault Refusal :=
  let s₁ := s.take (.release obj c d k)
  .next (if waitsFor s₁ obj c d k then
    (s₁.setCaller d k
      { s₁.caller d k with
        rel := true
        st := .floor
        relBeat := BitVec.ofNat 64 (callerBeat s₁) }).setCc d k c { s₁.cc d k c with waitReg := false }
  else s₁)

/-- The SKIP_IF of a Caller that waits for the value of `obj`. -/
def skipWaiting (s : State) (obj : ObjId) (c : CtxId) (d : DieId) (k : CallerId) : Option Running :=
  match (s.caller d k).run with
  | some r => if r.ctx = c ∧ r.work = .value ∧ skipObj r.fig = obj then some r else none
  | none => none

/-- VALUE (R131): PC becomes the target where the condition holds, otherwise the next figure; the SKIP_IF is acknowledged,
and a CMP figure's hash covers the new PC (R381). -/
def execValue (obj : ObjId) (c : CtxId) (d : DieId) (k : CallerId) (x : BitVec 20) (s : State) :
    Host.Outcome State Fault Refusal :=
  let s₁ := s.take (.value obj c d k x)
  match skipWaiting s₁ obj c d k with
  | none => .next s₁
  | some r =>
    let pc := if skipTaken r.fig (syncSat s₁ obj) x then skipTarget r.fig else r.pc + 1
    let r₁ : Running := { r with work := .done, newPc := pc, hash := some (mcHash (leBytes 8 pc.toNat)) }
    let s₂ := reelEvent (progress s₁ d k) d recSkip k c pc.toNat (figOp r.fig) (figLayer r.fig) (figOperator r.fig)
    .next (finishFigure s₂ d k r₁ 0 0)

/-- SYNC_REFUSAL (R139): the Caller holds with FIGERR 7, at its figure for a WAITREG or READ, otherwise at the first figure
it has not launched. -/
def execSyncRefusal (kind : SyncKind) (obj : ObjId) (c : CtxId) (d : DieId) (k : CallerId) (s : State) :
    Host.Outcome State Fault Refusal :=
  let s₁ := s.take (.refusal kind obj c d k)
  let ev := ctxEvent d k c 0x03 7
  match kind with
  | .signal => .next ((holdLater s₁ d k c 7).report ev)
  | .waitreg => .next (if waitsFor s₁ obj c d k then (hold s₁ d k c 7).report ev else s₁)
  | .read => .next (if (skipWaiting s₁ obj c d k).isSome then (hold s₁ d k c 7).report ev else s₁)

/-! ### Signals between modules (R143) -/

/-- A message that arrived on an external port has been handled. -/
def xtake (s : State) (x : XPort) (p : XMsg → Bool) : State :=
  let l := s.link x
  match l.inbox.find? p with
  | some m => s.setLink x { l with inbox := l.inbox.erase m }
  | none => s

/-- REMOTE_SIGNAL: checked against the same context number, applied or captured with DIE 0xF, and answered. -/
def execRemoteSignal (x : XPort) (m : ModId) (tag : BitVec 16) (obj : ObjId) (inc : BitVec 8) (c : CtxId) (s : State) :
    Host.Outcome State Fault Refusal :=
  let s₁ := xtake s x fun q => q.kind = 0x03 && q.tag = tag && q.m = m
  let ok := syncAllowed s₁ obj c
  let s₂ := if ok then applySignal s₁ obj inc else syncErr s₁ .signal obj c 15 0
  .next (xsend s₂ x true { kind := 0x83, m := m, tag := tag, addr := BitVec.ofNat 48 obj.val, status := if ok then 0 else 1 })

/-- The request that an answer on a port belongs to. -/
def remoteOf (s : State) (x : XPort) (tag : BitVec 16) : Option RemoteWhat :=
  (s.remotes.find? fun r => r.x = x ∧ r.tag = tag).map (·.what)

def dropRemote (s : State) (x : XPort) (tag : BitVec 16) : State :=
  { s with remotes := s.remotes.filter fun r => !(r.x = x ∧ r.tag = tag) }

/-- SIG_ACK: with STATUS DENIED the Caller holds with FIGERR 7 at the first figure it has not launched. -/
def execSigAck (x : XPort) (tag : BitVec 16) (status : BitVec 8) (s : State) : Host.Outcome State Fault Refusal :=
  let s₁ := xtake s x fun q => q.kind = 0x83 && q.tag = tag
  match remoteOf s₁ x tag with
  | some (.signal d k c) =>
    let s₂ := dropRemote s₁ x tag
    .next (if status = 1 then (holdLater s₂ d k c 7).report (ctxEvent d k c 0x03 7) else s₂)
  | _ => .next s₁

/-! ### Anchor cells -/

/-- The Result of a cell goes to a participant, in this module or over the port its Post came by (R52, R56). -/
def sendResult (s : State) (cell : CellId) (tag : BitVec 48) (v : BitVec 32) (w : Sender) : State :=
  match w with
  | .local _ d _ => s.send (.result cell tag v d)
  | .remote x m =>
    xsend s x true
      { kind := 0x84, m := m, tag := 0, len := 16, data := padTo 16 (BitVec.ofNat 8 cell.val :: leBytes 6 tag.toNat ++ leBytes 4 v.toNat) }

/-- A cell takes what a message does to it. -/
def applyCell (s : State) (cell : CellId) (tag : BitVec 48) (a : CellAct) : State :=
  a.results.foldl (fun s w => sendResult s cell tag a.cell.value w) (s.setCell cell a.cell)

/-- POST (R52). -/
def execPost (cell : CellId) (tag : BitVec 48) (index count : BitVec 8) (v : BitVec 32) (c : CtxId) (d : DieId) (k : CallerId)
    (s : State) : Host.Outcome State Fault Refusal :=
  let s₁ := cellRead (s.take (.post cell tag index count v c d k)) cell
  let a := cellPost (s₁.cell cell) tag index count v (.local c d k)
  .next (if a.err then cellError s₁ d k c (figureAt s₁ d k c) else applyCell s₁ cell tag a)

/-- ANCHOR_RELEASE (R52). -/
def execAnchorRelease (cell : CellId) (tag : BitVec 48) (index : BitVec 8) (c : CtxId) (d : DieId) (k : CallerId) (s : State) :
    Host.Outcome State Fault Refusal :=
  let s₁ := cellRead (s.take (.anchorRelease cell tag index c d k)) cell
  let a := cellRelease (s₁.cell cell) tag index
  .next (if a.err then cellError s₁ d k c (figureAt s₁ d k c) else applyCell s₁ cell tag a)

/-- A_POST (R56, R323): as a Post; the spec gives no message that would tell another module of a discarded one. -/
def execAPost (x : XPort) (m : ModId) (cell : CellId) (tag : BitVec 48) (index count : BitVec 8) (v : BitVec 32) (s : State) :
    Host.Outcome State Fault Refusal :=
  let s₁ := cellRead (xtake s x fun q => q.kind = 0x04 && q.m = m && q.data = postBytes cell tag index count v) cell
  .next (applyCell s₁ cell tag (cellPost (s₁.cell cell) tag index count v (.remote x m)))

/-- A_REL (R56, R323). -/
def execARel (x : XPort) (m : ModId) (cell : CellId) (tag : BitVec 48) (index : BitVec 8) (s : State) :
    Host.Outcome State Fault Refusal :=
  let s₁ := cellRead (xtake s x fun q => q.kind = 0x05 && q.m = m && q.data = relBytes cell tag index) cell
  .next (applyCell s₁ cell tag (cellRelease (s₁.cell cell) tag index))

/-- A Caller's figure waits for the Result of a cell with its tag, in the hub of this module or of another. -/
def awaits (own : Nat) (r : Running) (cell : CellId) (tag : BitVec 48) (here : Bool) : Bool :=
  r.work = .result && (groupOf r).cell = cell.val && cellTag r.fig r.step = tag && decide ((groupOf r).mod = own) == here

/-- The Result reaches the Callers of a die that wait for it; for a switched-out context it is discarded (R54). -/
def deliverResult (s : State) (cell : CellId) (tag : BitVec 48) (v : BitVec 32) (here : Bool) (d : DieId) : State :=
  (List.finRange 4).foldl (fun s k =>
    match (s.caller d k).run with
    | some r => if awaits (ownModule s) r cell tag here then takeResult s d k r v else s
    | none => s) s

/-- RESULT (R54). -/
def execResult (cell : CellId) (tag : BitVec 48) (v : BitVec 32) (d : DieId) (s : State) : Host.Outcome State Fault Refusal :=
  .next (deliverResult (s.take (.result cell tag v d)) cell tag v true d)

/-- A_RES (R56, R323). -/
def execARes (x : XPort) (cell : CellId) (tag : BitVec 48) (v : BitVec 32) (s : State) : Host.Outcome State Fault Refusal :=
  let s₁ := xtake s x fun q => q.kind = 0x84 && q.data = padTo 16 (BitVec.ofNat 8 cell.val :: leBytes 6 tag.toNat ++ leBytes 4 v.toNat)
  .next ((List.finRange 12).foldl (fun s d => deliverResult s cell tag v false d) s₁)

/-- A waiting PARTIAL flit leaves the landing buffer of a port (R122). -/
def unland (s : State) (q : Nat) (entry : BitVec 12) (payload : List Byte) : State :=
  let l := SMap.get (fun _ => []) s.mesh.landing q
  match l.find? fun f => f.waiting && f.flit.entry = entry && f.flit.payload = payload with
  | some f => { s with mesh := { s.mesh with landing := SMap.set (fun _ => []) s.mesh.landing q (l.erase f) } }
  | none => s

/-- WIDE_PARTIAL (R57): the receiving figure of the entry's context takes the flit; with none that accumulates it waits. -/
def execWidePartial (d : DieId) (p : Fin 8) (entry : BitVec 12) (payload : List Byte) (s : State) :
    Host.Outcome State Fault Refusal :=
  match partialTaker s d (planEntry s (activeBank s) entry.toNat).ctx with
  | none => .next s
  | some (k, r, left) => .next (takePartial (unland s (8 * d.val + p.val) entry payload) d k r left entry payload)

end Sys2Proof.Machine
end

