-- ==== Sys2Proof/Machine/MemOps.lean ====
section
/-! DEFINITION. Reads and writes of the module physical space by the hub, the controllers and the walker: reach, SECDED
outcomes and counters (R88, R161 to R174, R180, R186), and the discard of translations (R184, R185). -/
namespace Sys2Proof.Machine

/-! ### Stacks -/

def memState (s : State) (st : Nat) : Nat := s.fld (aPbMemstat (st / 8) (st % 8)) 2 0
def setMemState (s : State) (st v : Nat) : State := s.setFld (aPbMemstat (st / 8) (st % 8)) 2 0 v
def memOff : Nat := 0
def memTraining : Nat := 1
def memInService : Nat := 2
def memSelfRefresh : Nat := 3
def memFailed : Nat := 4
def memZeroing : Nat := 5

/-- A stack accepts accesses (R168). -/
def stackServes (s : State) (st : Nat) : Bool := mUp s st && memState s st = memInService

/-- The whole 128-byte lines that a run of bytes touches (R161). -/
def lineStart (pa : Nat) : Nat := pa / 128 * 128
def lineBytes (pa n : Nat) : Nat := if n = 0 then 0 else (pa + n + 127) / 128 * 128 - lineStart pa

/-- Correctable and poisoned words of a run. -/
def eccHits (s : State) (pa n : Nat) (two : Bool) : List Nat :=
  (s.ecc.filter fun e => n ≠ 0 && pa / 8 ≤ e.1 && e.1 ≤ lastWord pa n && decide (e.2 ≥ 2) == two).map (·.1 * 8)

/-- A controller reads the lines of a run (R165): single-bit errors are corrected, written back, counted and reported;
poisoned words are counted. Answers whether every line is delivered. -/
def stackRead (s : State) (st off n : Nat) : State × Bool :=
  let pa := lineStart (stackPa st off)
  let m := lineBytes (stackPa st off) n
  let ones := (eccHits s pa m false).length
  let twos := (eccHits s pa m true).length
  let s₁ := (s.correct pa m).count (aPbMemerr (st / 8) (st % 8)) 31 16 ones
  let s₂ := (List.replicate ones (corrected (12 + st / 8) 0x10 st)).foldl State.report s₁
  (s₂.count (aPbMemerr (st / 8) (st % 8)) 15 0 twos, twos = 0)

/-- Event 0x13: an uncorrectable word found by the scrub or by a host MEM_RD (R166, R427), with the address of the access
(R481). -/
def stackUncorr (st pa master : Nat) : FaultReport :=
  { contained (12 + st / 8) 0x13 5 st st with space := 2, addr := BitVec.ofNat 48 pa, master := BitVec.ofNat 4 master }

/-! ### Requests to the ledger (R209, R210, R212, R214) -/

/-- Requester numbers: dies 0 to 11, the inbound streams of X0 to X15 as 12 to 27, the guest 28, the hub 29 (DESIGN CHOICE, log entry 74). -/
def portRequester (x : XPort) : Nat := 12 + x.val
def guestRequester : Nat := 28
def hubRequester : Nat := 29

/-- A request joins its requester's queue, with the slot it reached the ledger in; `left` is its lines where the ledger serves
it slot by slot. -/
def State.ask (s : State) (r : LedReq) (use : GrantUse) (left : Option Nat) : State :=
  State.hubWrite { s with mesh := { s.mesh with
    queue := s.mesh.queue ++ [{ req := r, slot := BitVec.ofNat 64 (s.beat.toNat / 32), use := use, left := left }] } } 4 aLedgerWord

/-- A request for the lines of `n` bytes at a local address: through the stack that holds them, or across the bond of the die
whose SRAM does. An access elsewhere takes no grant. -/
def State.askLines (s : State) (requester : Nat) (cls5 : Bool) (use : GrantUse) (pa n : Nat) : State :=
  let k := lineBytes pa n / 128
  let r : LedReq := { cls5 := cls5, requester := requester, input := none, output := none, bond := none, stack := none }
  if k = 0 then s
  else match place (ownModule s) pa with
    | .stack st _ => s.ask { r with stack := some (Fin.ofNat 32 st, k) } use (some k)
    | .sram d _ => s.ask { r with bond := some (Fin.ofNat 12 d, k) } use (some k)
    | _ => s

/-- Host data to or from a stack or SRAM: a class 5 request of the hub, and downward places of the base die's link for what it
writes (R208, R210). -/
def State.hostLines (s : State) (pa n : Nat) (wr : Bool) : State :=
  let s₁ := s.askLines hubRequester true .other pa n
  if !wr then s₁
  else match place (ownModule s) pa with
    | .stack st _ => s₁.linkDown5 (st / 8) n
    | .sram d _ => s₁.linkDown5 (d / 3) n
    | _ => s₁

/-- The ledger has still to grant lines of a context's load, save or restore (R31). -/
def ctxLinesLeft (s : State) (c : CtxId) : Bool := s.mesh.queue.any fun q => q.use = .ctx c

/-! ### Page-directory memory (R180, R186) -/

/-- One 8-byte entry read whole: corrected or in double error. -/
def dirRead (s : State) (pa : Nat) : State × Option Nat :=
  if s.eccAt pa ≥ 2 then (s.count aHubPderr 15 0 1, none)
  else
    let s₁ := if s.eccAt pa = 1 then ((s.setEcc pa 0).count aHubPderr 31 16 1).report (corrected 24 0x20 0) else s
    (s₁, some (leNat (s₁.bytes (pa / 8 * 8) 8)))

/-! ### SRAM from outside its die (R83, R84, R174) -/

/-- The die accepts accesses: not off, and past INIT (R89). -/
def sramServes (s : State) (d : Nat) : Bool :=
  domOn s d && (s.fld (aTdState d) 2 0 = 2 || s.fld (aTdState d) 2 0 = 3)

/-- A read through the main port in the mover class that no figure makes: corrected words count on the die (R524), a
poisoned word is captured with no context. -/
def sramRead (s : State) (d off n master : Nat) : State × Bool :=
  let pa := sramPa d off
  let ones := eccHits s pa n false
  let s₁ := ones.foldl (fun s w => (s.count (aTdSramerr d) 31 16 1).report (corrected d 0x01 (sramBank (w - sramPa d 0)))) (s.correct pa n)
  let s₂ := dieCount s₁ d cntCorr ones.length
  match eccHits s pa n true with
  | [] => (s₂, true)
  | w :: _ =>
    let a := w - sramPa d 0
    let s₃ := s₂.count (aTdSramerr d) 15 0 1
    let s₄ := if s₃.bit (aTdSramfirst1 d) 31 then s₃
      else (s₃.wr (aTdSramfirst0 d) (BitVec.ofNat 32 a)).capture (aTdSramfirst1 d) (BitVec.ofNat 32 (2 ^ 31 + masterMover * 2 ^ 28))
    (s₄.report
      { contained d 0x02 1 0 masterMover with space := 1, addr := BitVec.ofNat 48 a, master := BitVec.ofNat 4 master, access := 0 }, false)

/-! ### Any local address -/

/-- Which requester makes an access: the hub's save, restore or dump (8), a host command (9), the guest (11), another
module (12), by the master codes of R481. -/
abbrev Master := Nat
def masterHub : Master := 8
def masterHost : Master := 9
def masterGuest : Master := 11
def masterRemote : Master := 12

/-- A read of `n` bytes at a local address, with the status it ends with (R165, R168, R174, R431). -/
def memRead (s : State) (m : Master) (pa n : Nat) : State × Status :=
  match place (ownModule s) pa with
  | .stack st off =>
    if off + n > 0x900000000 then (s, .address)
    else if !stackServes s st then (s, .stackDown)
    else
      let (s₁, ok) := stackRead s st off n
      if ok then (s₁, .ok) else (if m = masterHost then s₁.report (stackUncorr st pa m) else s₁, .poison)
  | .sram d off =>
    if off + n > 0x8000000 || !sramServes s d then (s, .address)
    else
      let (s₁, ok) := sramRead s d off n m
      (s₁, if ok then .ok else .poison)
  | .dir off =>
    if off + n > 0x1000000 || m ≠ masterHost then (s, .address)
    else
      (List.range ((n + 7) / 8)).foldl (fun (p : State × Status) i =>
        match dirRead p.1 (dirPa off / 8 * 8 + 8 * i) with
        | (s₁, some _) => (s₁, p.2)
        | (s₁, none) => (s₁, .poison)) (s, .ok)
  | _ => (s, .address)

/-- Whether a write of `n` bytes at a local address is taken, and with which status otherwise (R168, R174). -/
def memWritable (s : State) (m : Master) (pa n : Nat) : Status :=
  match place (ownModule s) pa with
  | .stack st off => if off + n > 0x900000000 then .address else if stackServes s st then .ok else .stackDown
  | .sram d off => if off + n > 0x8000000 || !sramServes s d then .address else .ok
  | .dir off => if off + n > 0x1000000 || m ≠ masterHost then .address else .ok
  | _ => .address

/-- Data written at a local address. -/
def memWrite (s : State) (m : Master) (pa : Nat) (bs : List Byte) : State × Status :=
  match memWritable s m pa bs.length with
  | .ok => (s.write (localPa (ownModule s) pa) bs, .ok)
  | st => (s, st)

/-- `n` bytes copied from one local address to another, with fresh check bits. -/
def State.copy (s : State) (src dst n : Nat) : State :=
  if n = 0 then s
  else
    let z : Nat → Byte := fun _ => 0
    let cells := s.mem.filter fun e => src ≤ e.1 && e.1 < src + n
    let m := cells.foldl (fun m e => SMap.set z m (e.1 - src + dst) e.2) (SMap.clear s.mem dst (dst + n - 1))
    ((({ s with mem := m }).clearEcc (dst / 8) ((dst % 8 + n + 7) / 8)).injectAt dst).markDirty dst n

/-- `n` bytes set to zero. -/
def State.zero (s : State) (dst n : Nat) : State :=
  if n = 0 then s
  else
    ((({ s with mem := SMap.clear s.mem dst (dst + n - 1) }).clearEcc (dst / 8) ((dst % 8 + n + 7) / 8)).injectAt dst).markDirty
      dst n

/-! ### Translations (R184, R185, R187) -/

/-- Every TLB entry that matches is discarded, and walks in flight that match go stale. -/
def tlbDiscard (s : State) (hit : CtxId → BitVec 27 → Bool) : State :=
  { s with
    tlb := s.tlb.filter fun e => !hit e.ctx e.vpn
    walks := s.walks.map fun w => if hit w.ctx w.vpn then { w with stale := true } else w }

end Sys2Proof.Machine
end

