-- ==== Sys2Proof/Machine/Guest.lean ====
section
/-! DEFINITION. The guest firewall: its states, attestation, memory requests and sync messages (R231 to R236, R242 to R245). -/
namespace Sys2Proof.Machine

/-- Codes of GFW_STATE.STATE (R232). -/
def gfwState (s : State) : Nat := s.fld aGfwState 2 0
def setGfwState (s : State) (v : Nat) : State := s.setFld aGfwState 2 0 v
def gfwReset : Nat := 1
def gfwAttesting : Nat := 2
def gfwAttested : Nat := 3
def gfwOpened : Nat := 4
def gfwFailed : Nat := 5

def guestFitted (s : State) : Bool := s.bit aHubInv 16

/-- A violation is captured while VALID is 0, and reported (R245, R476). -/
def guestViolation (s : State) (kind unit : Nat) : State :=
  if s.bit aGfwErr 31 then s
  else (s.capture aGfwErr (BitVec.ofNat 32 (2 ^ 31 + kind * 2 ^ 27 + unit))).report (contained 29 0x49 10 0 kind)

/-! ### Memory (R233) -/

/-- Windows in force that contain every byte of a request. -/
def guestWindows (s : State) (pa n : Nat) : List Nat :=
  (List.range 8).filter fun i =>
    s.bit (aGfwWin0 i) 31 && decide (s.fld (aGfwWin0 i) 26 0 ≤ pa / 0x200000) &&
      decide ((pa + n - 1) / 0x200000 ≤ s.fld (aGfwWin1 i) 26 0)

/-- Why a request is refused, as KIND of GFW_ERR. -/
def guestRefusal (s : State) (wr : Bool) (pa n : Nat) : Option Nat :=
  let ws := guestWindows s pa n
  if gfwState s ≠ gfwOpened || ws = [] then some 0
  else if ws.any fun i => s.bit (aGfwWin0 i) (if wr then 30 else 29) then none
  else some (if wr then 1 else 2)

/-- A firewall that answers the guest at all: a guest is fitted and not in reset (R236). -/
def guestRuns (s : State) : Bool := guestFitted s && gfwState s ≠ 0 && gfwState s ≠ gfwReset

/-- Requests of the guest that the ledger has still to grant (R235). -/
def guestOutstanding (s : State) : Nat := (s.mesh.queue.filter fun x => x.req.requester = guestRequester).length

/-- The guest may have no further request outstanding: it sends none (R235). -/
def guestFull (s : State) : Bool := decide (s.fld aGfwShare 15 8 ≤ guestOutstanding s)

/-- GUEST_MEMORY_REQUEST: admitted, the request joins the guest's class 4 queue (R212, R233, R235). -/
def guestMemory (s₀ : State) (wr : Bool) (pa len : Nat) (data : List Byte) : State :=
  let n := if wr then data.length else len
  if !guestRuns s₀ || guestFull s₀ then s₀
  else match guestRefusal s₀ wr pa n with
    | some kind => (guestViolation s₀ kind (pa / 0x200000)).send .guestDenied
    | none =>
      let s := s₀.askLines guestRequester false .other (localPa (ownModule s₀) pa) n
      if wr then
        match memWrite s masterGuest pa data with
        | (s₁, .ok) => s₁.send .guestWriteAck
        | (s₁, _) => s₁.send .guestDenied
      else
        match memRead s masterGuest pa n with
        | (s₁, .ok) => s₁.send (.guestData (s₁.bytes (localPa (ownModule s) pa) n))
        | (s₁, _) => s₁.send .guestDenied

def execGuestMemoryRequest (wr : Bool) (pa : BitVec 48) (len : Nat) (data : List Byte) (s : State) :
    Host.Outcome State Fault Refusal := .next (guestMemory s wr pa.toNat len data)

/-! ### Sync messages (R138, R139, R234) -/

def guestSlot (slot : Fin 16) : Fin 64 := ⟨48 + slot.val, by omega⟩

/-- KIND of HUB_SYNCERR of a guest message; a WAITCANCEL is never refused for EN (R139). -/
def guestKind : GuestSync → Option SyncKind
  | .signal _ => some .signal
  | .waitreg _ => some .waitreg
  | .waitcancel => none
  | .read => some .read

/-- An admitted message acts. -/
def guestSyncGo (s : State) (kind : GuestSync) (o : ObjId) (slot : Fin 16) : State :=
  match kind with
  | .signal inc => applySignal s o inc
  | .waitreg thr => registerWait s (guestSlot slot) o thr 0
  | .waitcancel => freeWaiter s (guestSlot slot) o
  | .read => sendValue (syncRead s o) (.guestValue o (syncVal s o))

/-- GUEST_SYNC_MESSAGE: the allowlist takes the place of the OWNER test, and EN is tested as for a Caller. -/
def guestSync (s : State) (kind : GuestSync) (o : ObjId) (slot : Fin 16) : State :=
  if !guestRuns s then s
  else if gfwState s ≠ gfwOpened || !s.bit (aGfwSyncallow (o.val / 32)) (o.val % 32) then guestViolation s 3 o.val
  else match guestKind kind with
    | none => guestSyncGo s kind o slot
    | some k => if syncEn s o then guestSyncGo s kind o slot else guestViolation (syncErr s k o 0 15 0) 3 o.val

def execGuestSyncMessage (kind : GuestSync) (obj : ObjId) (slot : Fin 16) (s : State) : Host.Outcome State Fault Refusal :=
  .next (guestSync s kind obj slot)

/-! ### States (R232, R236) -/

/-- Writing RESET 1: requests queued and waiter entries of the guest go, its registers clear, and the firewall is in RESET. -/
def guestReset (s : State) : State :=
  let s₁ := { s with
    waiters := s.waiters.filter fun w => w.slot.val < 48
    mesh := { s.mesh with queue := s.mesh.queue.filter fun x => x.req.requester ≠ guestRequester }
    net := s.net.filter fun m => match m with | .guestData _ => false | _ => true }
  let s₂ := (List.range 12).foldl (fun s i => s.wr (aGfwMeas i) 0) s₁
  (s₂.wr aGfwState (if guestFitted s then 1 else 0)).setBit aGfwCtl 0 true

/-- Both feeds of the guest site switch on 1 ms before the firewall leaves RESET, which is now; feeds that are on stay on (R583, log
entry 78). -/
def guestFeeds (s : State) : State :=
  { s with pins := { s.pins with guestFeed := some (s.pins.guestFeed.getD ((s.clock : Int) - 1000000000)) } }

/-- Writing RESET 0 in RESET: the hub sends its nonce and waits for the report. -/
def guestRelease (s : State) (nonce : BitVec 384) : State :=
  let s₁ := s.setBit aGfwCtl 0 false
  if gfwState s = gfwReset then (setGfwState (guestFeeds { s₁ with guestNonce := nonce }) gfwAttesting).send (.guestNonce nonce)
  else s₁

/-- Attestation fails with code AFAIL: a corrected event (R242, R476). -/
def guestFails (s : State) (afail : Nat) : State :=
  (setGfwState (s.setFld aGfwState 11 8 afail) gfwFailed).report (corrected 29 0x48 afail)

/-- Bytes of a 384-bit value, the first byte most significant. -/
def beBytes384 (x : BitVec 384) : List Byte := (leBytes 48 x.toNat).reverse

/-- ATTESTATION_REPORT: format, signature over the nonce and the measurement, then the key's hash where the policy has one
(R232, R242). -/
def execAttestationReport (formed : Bool) (meas : BitVec 384) (key : List Byte) (sig : BitVec 768) (s : State) :
    Host.Outcome State Fault Refusal :=
  .next (if gfwState s ≠ gfwAttesting then s
    else if !formed then guestFails s 4
    else if !Config.ecdsaVerify key (beBytes384 s.guestNonce ++ beBytes384 meas) sig then guestFails s 1
    else if (match s.image.guestKey with | some h => decide (Config.sha384 key ≠ h) | none => false) then guestFails s 2
    else
      let b := beBytes384 meas
      setGfwState ((List.range 12).foldl (fun s i => s.wr (aGfwMeas i) (BitVec.ofNat 32 (fieldAt b (4 * i) 4))) s) gfwAttested)

/-- ATTESTATION_TIMEOUT. -/
def execAttestationTimeout (s : State) : Host.Outcome State Fault Refusal :=
  .next (if gfwState s = gfwAttesting then guestFails s 3 else s)

end Sys2Proof.Machine
end

