-- ==== Sys2Proof/Machine/HostIn.lean ====
section
/-! DEFINITION. Host commands: acceptance, refusal, completion, and the host memory commands (R174, R426 to R434, R444, R454,
R464, R528). -/
namespace Sys2Proof.Machine

/-- The header fields that a command's completion repeats. -/
def keyOf (h : HostHdr) : CplKey where
  ch := h.ch
  tag := h.tag
  nocpl := h.nocpl
  x15 := h.x15

/-- The module takes host messages: from phase POWER_UP on, while the hub has power (R442, R466). -/
def hostOpen (s : State) : Bool := domOn s 16 && decide (2 ≤ bootState s) && decide (bootState s ≠ bootQuiesced)

/-- Channel `ch` carries context privilege (R528). -/
def ctxPrivileged (s : State) (ch : ChanId) : Bool := ch.val ≠ 0 && s.bit aDbgChpriv ch.val

/-- A context-privileged channel's mask holds the context. -/
def chanReaches (s : State) (ch : ChanId) (c : CtxId) : Bool := s.bit (aDbgChctx ch (c.val / 32)) (c.val % 32)

/-- What a host message is, for its privilege and for the start states: an access of a register, a memory command, or a
command that names a context. -/
inductive HostKind where
  | reg | mem | ctx (c : CtxId)
deriving DecidableEq, Repr

/-- Why an accepted message is not applied, if it is not (R426, R434, R444, R454, R464, R528). -/
def hostRefusal (s : State) (h : HostHdr) (k : HostKind) : Option Status :=
  if h.x15 ≠ s.x15Host then some .hostSelect
  else if h.rsvd ≠ 0 ∨ h.chField ≠ h.ch then some .format
  else match k with
    | .reg => none
    | .mem => if ctxPrivileged s h.ch then some .access else if bootState s ≠ bootReady then some .state else none
    | .ctx c =>
      if ctxPrivileged s h.ch && !chanReaches s h.ch c then some .access
      else if bootState s ≠ bootReady then some .state else none

/-- The context that a completion names: that of the command (R431). -/
def HostKind.ctxOf : HostKind → CtxId
  | .ctx c => c
  | _ => 0

/-- A whole message is accepted on its channel (R438) and refused with a completion, or applied. -/
def hostCmd (s : State) (h : HostHdr) (kind : Byte) (k : HostKind) (go : State → State) : State :=
  if !hostOpen s then s
  else
    let s₁ := s.count (aHlkAccept h.ch) 31 0 1
    match hostRefusal s₁ h k with
    | some st => s₁.complete (keyOf h) kind k.ctxOf st 0 []
    | none => go s₁

/-- The completion of a context command. -/
def ctxDone (s : State) (h : HostHdr) (kind : Byte) (c : CtxId) (st : Status) : State := s.complete (keyOf h) kind c st 0 []

/-! ### MEM_RD and MEM_WR (R174, R427) -/

/-- A run of bytes lies in one 2 MiB page and in a region that R174 opens to the host. -/
def hostReach (s : State) (pa n : Nat) : Bool :=
  pa % 0x200000 + n ≤ 0x200000 &&
    match place (ownModule s) pa with
    | .stack _ off => off + n ≤ 0x900000000
    | .sram _ off => off + n ≤ 0x8000000
    | .dir off => off + n ≤ 0x1000000
    | .remote _ off => off % 0x1000000000 + n ≤ 0x900000000
    | .none => false

/-- KIND codes of R427. -/
def kRegRd : Byte := 0x40
def kRegWr : Byte := 0x41
def kRegWrb : Byte := 0x42
def kMemRd : Byte := 0x48
def kMemWr : Byte := 0x49
def kLoad : Byte := 0x50
def kUnload : Byte := 0x51
def kStartStep : Byte := 0x52
def kRun : Byte := 0x53
def kPreempt : Byte := 0x54
def kResume : Byte := 0x55
def kSave : Byte := 0x56
def kRestore : Byte := 0x57

/-- Module number that a remote address names. -/
def remoteModule (pa : Nat) : Nat := (pa - 0x800000000000) / 0x100000000000

/-- MEM_RD: the lines come back in the completion; a remote stack is read over its port (R194). -/
def hostRead (s : State) (h : HostHdr) (pa n : Nat) : State :=
  let key := keyOf h
  if pa % 128 ≠ 0 || !hostReach s pa n then s.complete key kMemRd 0 .address 0 []
  else match place (ownModule s) pa with
    | .remote m _ =>
      xrequest s m { kind := 0x01, m := 0, tag := 0, addr := BitVec.ofNat 48 pa, len := n } (.host key kMemRd)
    | _ =>
      let (s₁, st) := memRead (s.hostLines pa n false) masterHost pa n
      s₁.complete key kMemRd 0 st 0 (if st = .ok then s₁.bytes (localPa (ownModule s) pa) n else [])

def execMemRd (h : HostHdr) (pa : BitVec 48) (linesM1 : Fin 16) (s : State) : Host.Outcome State Fault Refusal :=
  .next (hostCmd s h kMemRd .mem fun s => hostRead s h pa.toNat (128 * (linesM1.val + 1)))

/-- Why host data cannot be placed at an address, if it cannot (R174, R427). -/
def hostWriteBad (s : State) (pa : Nat) (bs : List Byte) : Option Status :=
  if bs.length % 8 ≠ 0 ∨ bs.length > 2048 then some .format
  else if pa % 8 ≠ 0 || !hostReach s pa bs.length then some .address
  else none

/-- MEM_WR: 8-byte words written and acknowledged. -/
def hostWrite (s : State) (h : HostHdr) (pa : Nat) (bs : List Byte) : State :=
  let key := keyOf h
  match hostWriteBad s pa bs with
  | some st => s.complete key kMemWr 0 st 0 []
  | none =>
    match place (ownModule s) pa with
    | .remote m _ =>
      xrequest s m { kind := 0x02, m := 0, tag := 0, addr := BitVec.ofNat 48 pa, len := bs.length, data := bs } (.host key kMemWr)
    | _ =>
      let (s₁, st) := memWrite (s.hostLines pa bs.length true) masterHost pa bs
      s₁.complete key kMemWr 0 st 0 []

def execMemWr (h : HostHdr) (pa : BitVec 48) (data : List Byte) (s : State) : Host.Outcome State Fault Refusal :=
  .next (hostCmd s h kMemWr .mem fun s => hostWrite s h pa.toNat data)

end Sys2Proof.Machine
end

