-- ==== Sys2Proof/Machine/Router.lean ====
section
/-! DEFINITION. The mesh as a Beneš network (R223 to R228): its shuffles, the light that a setting carries, and the complete
search for a setting of the 832 element codes that carries a row. -/
namespace Sys2Proof.Machine

/-! ### Elements (R223) -/

/-- sin²(πc/128) for codes 0 to 64, in units of 10⁻⁹: the share of light that crosses. -/
def crossShare : List Nat :=
  [0, 602272, 2407637, 5411745, 9607360, 14984373, 21529832, 29227967, 38060234, 48005353, 59039368,
   71135695, 84265194, 98396234, 113494773, 129524437, 146446609, 164220523, 182803358, 202150348, 222214883, 242948628,
   264301632, 286222453, 308658284, 331555073, 354857661, 378509910, 402454839, 426634763, 450991430, 475466163, 500000000,
   524533837, 549008570, 573365237, 597545161, 621490090, 645142339, 668444927, 691341716, 713777547, 735698368, 757051372,
   777785117, 797849652, 817196642, 835779477, 853553391, 870475563, 886505227, 901603766, 915734806, 928864305, 940960632,
   951994647, 961939766, 970772033, 978470168, 985015627, 990392640, 994588255, 997592363, 999397728, 1000000000]

def codeBar : Nat := 0
def codeCross : Nat := 64

/-- The code whose share is nearest to n/d (R226); of two equally near, the lower. -/
def nearestCode (n d : Nat) : Nat :=
  let dist (c : Nat) : Int := (((crossShare[c]?).getD 0 * d : Nat) : Int) - (n * 1000000000 : Nat)
  (List.range 65).foldl (fun best c => if (dist c).natAbs < (dist best).natAbs then c else best) 0

/-- Position after the shuffle that follows stage `t` (R223). -/
def shuffle (t p : Nat) : Nat :=
  if t ≤ 5 then
    let n := 2 ^ (7 - t)
    p / n * n + (p % n / 2 + p % 2 * (n / 2))
  else if t ≤ 11 then
    let n := 2 ^ (t - 4)
    p / n * n + (p % n * 2 % n + p % n * 2 / n)
  else p

/-- Codes of the elements, BAR where unlisted. -/
abbrev MeshCodes := List (Nat × Nat)

def codeOf (m : MeshCodes) (e : Nat) : Nat := ((m.find? fun x => x.1 = e).map (·.2)).getD codeBar

/-- A lit position: where it is, the input its light comes from, and its power in 10⁻⁹ of that input's. -/
structure Light where
  pos : Nat
  src : Nat
  power : Nat
deriving DecidableEq, Repr

/-- One stage and the shuffle after it; none where a split element has light on both inputs (R225). -/
def meshStage (m : MeshCodes) (t : Nat) (ls : List Light) : Option (List Light) :=
  let split (l : Light) : Bool := let c := codeOf m (64 * t + l.pos / 2); c ≠ codeBar && c ≠ codeCross
  if ls.any fun l => split l && ls.any fun x => x.pos / 2 = l.pos / 2 && x.pos ≠ l.pos then none
  else
    some (ls.flatMap fun l =>
      let c := codeOf m (64 * t + l.pos / 2)
      let other := if l.pos % 2 = 0 then l.pos + 1 else l.pos - 1
      let x := (crossShare[c]?).getD 0
      if c = codeBar then [{ l with pos := shuffle t l.pos }]
      else if c = codeCross then [{ l with pos := shuffle t other }]
      else
        [{ l with pos := shuffle t l.pos, power := l.power * (1000000000 - x) / 1000000000 },
         { l with pos := shuffle t other, power := l.power * x / 1000000000 }])

/-- The light at the mesh outputs when the inputs `ins` are lit. -/
def meshOutput (m : MeshCodes) (ins : List Nat) : Option (List Light) :=
  (List.range 13).foldl (fun ls t => ls.bind (meshStage m t)) (some (ins.map fun q => { pos := q, src := q, power := 1000000000 }))

/-- A connection of a row: input, output, and the fan-out of its entry. -/
structure Conn where
  inp : Nat
  out : Nat
  fan : Nat
deriving DecidableEq, Repr

/-- A setting carries a row: every output gets light of its input alone, within 0.1 dB of 1/FANOUT (R225, R226). -/
def carries (m : MeshCodes) (cs : List Conn) : Bool :=
  match meshOutput m (cs.map (·.inp)).eraseDups with
  | none => false
  | some ls =>
    cs.all fun c => match ls.filter fun l => l.pos = c.out with
      | [l] => l.src = c.inp && 97724 * 10000 ≤ l.power * c.fan && l.power * c.fan ≤ 102329 * 10000
      | _ => false

/-! ### The search (R225) -/

/-- What an output of a subnetwork is to carry: the subnetwork's input, and the number of destinations below. -/
abbrev Want := Option (Nat × Nat)

/-- A choice for an output: its number, its input, the destinations below, and the half (0 or 1) its light comes through. -/
structure Choice where
  out : Nat
  src : Nat
  n : Nat
  half : Nat
deriving DecidableEq, Repr

def lit (want : List Want) (x : Nat) : Bool := want.any fun w => match w with | some (s, _) => s = x | none => false

def mate (x : Nat) : Nat := if x % 2 = 0 then x + 1 else x - 1

/-- A choice agrees with those made before it: one half per light of an element with both inputs lit, no split at a failed
element, and a failed element at BAR. -/
def agrees (failIn failOut : Nat → Bool) (want : List Want) (cs : List Choice) (c : Choice) : Bool :=
  (!failOut (c.out / 2) || c.half = c.out % 2) && (!failIn (c.src / 2) || c.half = c.src % 2) &&
    cs.all fun d =>
      (d.out ≠ mate c.out || d.src = c.src || d.half ≠ c.half) && (d.src ≠ mate c.src || d.half ≠ c.half) &&
        (d.src ≠ c.src || d.half = c.half || !lit want (mate c.src))

/-- Every way to choose a half for each wanted output, handed on in turn until one leads to a result. -/
def choose {β : Type} (failIn failOut : Nat → Bool) (want : List Want) (k : List Choice → Option β) :
    List (Nat × Want) → List Choice → Option β
  | [], cs => k cs
  | (_, none) :: ws, cs => choose failIn failOut want k ws cs
  | (o, some (s, n)) :: ws, cs =>
    let go (h : Nat) : Option β :=
      let c : Choice := { out := o, src := s, n := n, half := h }
      if agrees failIn failOut want cs c then choose failIn failOut want k ws (cs ++ [c]) else none
    match go 0 with
    | some r => some r
    | none => go 1

/-- Wants of a half: element `e` of the last stage takes its light from output `e` of the half. -/
def halfWant (cs : List Choice) (h e : Nat) : Want :=
  match cs.filter fun c => c.half = h && c.out / 2 = e with
  | [] => none
  | c :: ds => some (c.src / 2, (c :: ds).foldl (fun n x => n + x.n) 0)

/-- Code of an outer element on the input side. -/
def inCode (cs : List Choice) (i : Nat) : Nat :=
  let on (x h : Nat) : Nat := (cs.filter fun c => c.src = x && c.half = h).foldl (fun n c => n + c.n) 0
  let a0 := on (2 * i) 0
  let a1 := on (2 * i) 1
  let b0 := on (2 * i + 1) 0
  let b1 := on (2 * i + 1) 1
  if a0 ≠ 0 ∧ a1 ≠ 0 then nearestCode a1 (a0 + a1)
  else if b0 ≠ 0 ∧ b1 ≠ 0 then nearestCode b0 (b0 + b1)
  else if a1 ≠ 0 ∨ b0 ≠ 0 then codeCross else codeBar

/-- Code of an outer element on the output side. -/
def outCode (cs : List Choice) (e : Nat) : Nat :=
  let at' (o : Nat) : Option Choice := cs.find? fun c => c.out = o
  match at' (2 * e), at' (2 * e + 1) with
  | some a, some b =>
    if a.half = b.half then (if a.half = 0 then nearestCode b.n (a.n + b.n) else nearestCode a.n (a.n + b.n))
    else if a.half = 0 then codeBar else codeCross
  | some a, none => if a.half = 0 then codeBar else codeCross
  | none, some b => if b.half = 1 then codeBar else codeCross
  | none, none => codeBar

/-- Pairs every member of a list with its index. -/
def indexed {α : Type} (xs : List α) : List (Nat × α) := (List.range xs.length).zip xs

/-- Settings of the subnetwork of 2^m positions, number `q` of its size, that carry its wants, handed on in turn. Its outer
stages are 7 - m and 5 + m. -/
def solve {β : Type} (failed : Nat → Bool) : (m q : Nat) → List Want → (MeshCodes → Option β) → Option β
  | 0, _, _, k => k []
  | 1, q, want, k =>
    let e := 64 * 6 + q
    let try' (c : Nat) : Option β := if failed e && c ≠ codeBar then none else k [(e, c)]
    match (want[0]?).getD none, (want[1]?).getD none with
    | none, none => k []
    | some (0, _), none => try' codeBar
    | some (_, _), none => try' codeCross
    | none, some (1, _) => try' codeBar
    | none, some (_, _) => try' codeCross
    | some (a, n), some (b, l) =>
      if a = b then try' (if a = 0 then nearestCode l (n + l) else nearestCode n (n + l))
      else if a = 0 then try' codeBar else try' codeCross
  | m + 2, q, want, k =>
    let t := 5 - m
    let half := 2 ^ (m + 1)
    let inNo (i : Nat) : Nat := 64 * t + q * half + i
    let outNo (e : Nat) : Nat := 64 * (12 - t) + q * half + e
    choose (fun i => failed (inNo i)) (fun e => failed (outNo e)) want (fun cs =>
      let mine := ((List.range half).map fun i => (inNo i, inCode cs i)) ++ (List.range half).map fun e => (outNo e, outCode cs e)
      solve failed (m + 1) (2 * q) ((List.range half).map (halfWant cs 0)) fun u =>
        solve failed (m + 1) (2 * q + 1) ((List.range half).map (halfWant cs 1)) fun l =>
          k ((mine.filter fun x => x.2 ≠ codeBar) ++ u ++ l)) (indexed want) []

/-- A setting that carries the connections of a row, if one exists. -/
def route (failed : Nat → Bool) (cs : List Conn) : Option MeshCodes :=
  let want (o : Nat) : Want := (cs.find? fun c => c.out = o).map fun c => (c.inp, 1)
  solve failed 7 0 ((List.range 128).map want) fun m => if carries m cs then some m else none

/-- A connection led over spare loop `h` (R228). -/
def Conn.loopedBy (c : Conn) (h : Nat) : List Conn := [{ c with out := 120 + h }, { inp := 120 + h, out := c.out, fan := 1 }]

/-- The row's connections with some one-to-one connections led over spare loops (R228), each direct or over any loop that is
free: the setting, and the loops with their connections. `splits` lets a branch of a split use a loop too. -/
def routeLoops (failed : Nat → Bool) (splits : Bool) :
    List Conn → List Conn → List Nat → List (Nat × Conn) → Option (MeshCodes × List (Nat × Conn))
  | [], done, _, used => (route failed done).map fun m => (m, used)
  | c :: cs, done, free, used =>
    match routeLoops failed splits cs (done ++ [c]) free used with
    | some r => some r
    | none =>
      if c.fan ≠ 1 && !splits then none
      else free.findSome? fun h => routeLoops failed splits cs (done ++ c.loopedBy h) (free.erase h) (used ++ [(h, c)])

/-- The loops. -/
def allLoops : List Nat := List.range 8

/-- A row routes (R225): without loops while no element has failed. -/
def routes (fails : List Nat) (cs : List Conn) : Option (MeshCodes × List (Nat × Conn)) :=
  let failed (e : Nat) : Bool := fails.contains e
  if fails = [] then (route failed cs).map fun m => (m, []) else routeLoops failed false cs [] allLoops []

end Sys2Proof.Machine
end

