-- ==== Sys2Proof/Machine/PlanCheck.lean ====
section
/-! DEFINITION. The check of a slot plan (R212, R215 to R219, R225): the first failure in the order of R219. -/
namespace Sys2Proof.Machine

/-- A failure: code of R219, entry, row. -/
structure PlanFail where
  code : Nat
  entry : Nat
  row : Nat
deriving DecidableEq, Repr

/-- Elements marked in HUB_MESHFAIL. -/
def meshFails (s : State) : List Nat := (List.range 832).filter fun e => s.bit (aHubMeshfail (e / 32)) (e % 32)

/-- An endpoint code (R217). -/
def endpointOk (c : Nat) : Bool := c < 12 || (16 ≤ c && c < 32)

/-- The part that an endpoint names is in service (R38): a die by HUB_INV, an external port unless it is off. -/
def endpointUp (s : State) (c : Nat) : Bool := if c < 12 then tdUp s c else lnkState s (c - 16) ≠ 0

/-- Header (R216). -/
def headerBad (s : State) (b : Nat) : Bool :=
  planField s b 0 4 ≠ 0x504C414E || planField s b 4 2 = 0 || planField s b 4 2 > 16 || planField s b 6 2 > 4095 ||
    (planBytes s b 8 24).any (· ≠ 0)

/-- Code 1 of an entry: a reserved field or value (R216, R217). Destination codes after FANOUT are only matched for code 2. -/
def entryFormatBad (s : State) (b e : Nat) : Bool :=
  let k := planField s b (32 * e) 1
  let f := planField s b (32 * e + 3) 1
  let src := planField s b (32 * e + 2) 1
  let land := planField s b (32 * e + 12) 4
  let len := planField s b (32 * e + 16) 4
  let die := planField s b (32 * e + 20) 1
  k > 4 || planField s b (32 * e + 1) 1 > 63 || !(src = 0xFF || endpointOk src) || f > 8 ||
    ((List.range 8).any fun i => let d := planField s b (32 * e + 4 + i) 1; d ≠ 0xFF && !endpointOk d) ||
    (if k = kindData then bits land 31 27 ≠ 0 || bits len 31 22 ≠ 0 else land ≠ 0 || len ≠ 0) ||
    (if k = kindData ∨ k = kindPartial then die ≠ 0 else die > 15) || (planBytes s b (32 * e + 21) 11).any (· ≠ 0)

/-- KIND and its fields disagree (R216, R217): destinations and FANOUT, a mesh part that DATA and PARTIAL need and the others
have whole or not at all, a landing area that is misaligned or too long, and a die that does not exist. -/
def entryFieldsBad (s : State) (b e : Nat) : Bool :=
  let p := planEntry s b e
  ((List.range 8).any fun i => decide (planField s b (32 * e + 4 + i) 1 = 0xFF) != decide (p.fanout ≤ i)) ||
    (if p.kind = kindData ∨ p.kind = kindPartial then p.src = 0xFF || p.fanout = 0 else (p.src = 0xFF) != (p.fanout = 0)) ||
    (p.kind = kindData && (planField s b (32 * e + 12) 4 % 8 ≠ 0 || planField s b (32 * e + 16) 4 > 2097152)) ||
    planField s b (32 * e + 20) 1 > 11

/-- Conditions of code 2 that need no row (R219): KIND against its fields, a fan-out of 1 to an external port, which R217
connects from a die's port only, and the parts named in service. An EMPTY entry has none. -/
def entryEndpointBad (s : State) (b e : Nat) : Bool :=
  let p := planEntry s b e
  p.kind ≠ kindEmpty &&
    (entryFieldsBad s b e || (p.dsts.any fun d => d ≥ 16 && (p.fanout > 1 || p.src ≥ 16)) ||
      (p.src ≠ 0xFF && !endpointUp s p.src) || p.dsts.any fun d => !endpointUp s d)

/-- The first failing entry of 1 to NENT. -/
def checkEntries (s : State) (b : Nat) : Option PlanFail :=
  (List.range (planNent s b)).findSome? fun i =>
    let e := i + 1
    if entryFormatBad s b e then some ⟨1, e, 0⟩ else if entryEndpointBad s b e then some ⟨2, e, 0⟩ else none

/-- Owners of a row: (input, entry). -/
def rowOwners (s : State) (b r : Nat) : List (Nat × Nat) :=
  (List.range 128).filterMap fun q => let e := rowOwner s b r q; if e = 0 then none else some (q, e)

/-- Connections that a row makes. -/
def rowConns (s : State) (b r : Nat) : List Conn :=
  (rowOwners s b r).flatMap fun (q, e) =>
    let p := planEntry s b e
    p.dsts.map fun d => { inp := q, out := outputOf q d, fan := p.fanout }

def reservedRow (r : Nat) : Bool := r % 16 = 4 || r % 64 = 62

def minEntry (es : List Nat) : Nat := es.foldl (fun m e => if m = 0 ∨ e < m then e else m) 0

/-- Code 1 or 2 of a row's owner words. -/
def checkOwners (s : State) (b r : Nat) : Option PlanFail :=
  (List.range 128).findSome? fun q =>
    let w := planField s b (0x20000 + 512 * r + 2 * q) 2
    let e := w % 4096
    if w ≥ 4096 then some ⟨1, e, r⟩
    else if e ≠ 0 && (e > planNent s b || !(endpointInputs (planEntry s b e).src).contains q) then some ⟨2, e, r⟩
    else none

/-- Code 3: two inputs for one output. -/
def checkConflict (s : State) (b r : Nat) : Option PlanFail :=
  let cs := (rowOwners s b r).flatMap fun (q, e) => (planEntry s b e).dsts.map fun d => (q, e, outputOf q d)
  let bad := cs.filter fun c => cs.any fun d => d.1 ≠ c.1 ∧ d.2.2 = c.2.2
  if bad = [] then none else some ⟨3, minEntry (bad.map (·.2.1)), r⟩

/-- Code 4: a split in a reserved row, or one that only a spare loop could carry. -/
def checkSplit (s : State) (b r : Nat) : Option PlanFail :=
  let splits := (rowOwners s b r).filter fun x => (planEntry s b x.2).isSplit
  let fails := meshFails s
  let e := minEntry (splits.map (·.2))
  if splits = [] then none
  else if reservedRow r then some ⟨4, e, r⟩
  else if fails ≠ [] && (routes fails (rowConns s b r)).isNone &&
      (routeLoops (fun x => fails.contains x) true (rowConns s b r) [] allLoops []).isSome then some ⟨4, e, r⟩
  else none

/-- Grant words of a row that are not 0: (entry, stack, lines, reserved bits). -/
def rowWords (s : State) (b r : Nat) : List (Nat × Nat × Nat × Nat) :=
  (List.range 64).filterMap fun g =>
    let w := planField s b (0x20000 + 512 * r + 256 + 4 * g) 4
    if w = 0 then none else some (bits w 11 0, bits w 16 12, bits w 28 17, bits w 31 29)

/-- Electrical grants of a row: an entry of 0 leaves a word unused. -/
def rowGrants (s : State) (b r : Nat) : List (Nat × Nat × Nat × Nat) := (rowWords s b r).filter fun g => g.1 ≠ 0

/-- The bond that a grant's lines cross: DIE's, where the stack lies on DIE's own base die (R218). -/
def grantBond (s : State) (b : Nat) (g : Nat × Nat × Nat × Nat) : Option Nat :=
  let p := planEntry s b g.1
  if g.2.1 / 8 = p.die / 3 then some p.die else none

def stackLines (gs : List (Nat × Nat × Nat × Nat)) (st : Nat) : Nat :=
  (gs.filter fun g => g.2.1 = st).foldl (fun n g => n + g.2.2.1) 0

def bondLines (s : State) (b : Nat) (gs : List (Nat × Nat × Nat × Nat)) (d : Nat) : Nat :=
  (gs.filter fun g => grantBond s b g = some d).foldl (fun n g => n + g.2.2.1) 0

/-- Code 5, and codes 1 and 2 of an electrical grant: grants in ascending index, then the shares of a reserved row. -/
def checkBudget (s : State) (b r : Nat) : Option PlanFail :=
  let gs := rowGrants s b r
  let share : Nat := if reservedRow r then 1 else 0
  let overStack (st lim : Nat) : Bool := stackLines gs st > lim
  let overBond (d lim : Nat) : Bool := bondLines s b gs d > lim
  let stackEntries (st : Nat) := minEntry ((gs.filter fun g => g.2.1 = st).map (·.1))
  let bondEntries (d : Nat) := minEntry ((gs.filter fun g => grantBond s b g = some d).map (·.1))
  let one := (rowWords s b r).findSome? fun g =>
    let k := (planEntry s b g.1).kind
    if g.2.2.2 ≠ 0 then some (⟨1, g.1, r⟩ : PlanFail)
    else if g.1 = 0 then none
    else if g.2.2.1 = 0 ∨ g.2.2.1 > 512 then some ⟨1, g.1, r⟩
    else if g.1 > planNent s b || !(k = kindStream || k = kindMemory) then some ⟨2, g.1, r⟩
    else if overStack g.2.1 512 then some ⟨5, stackEntries g.2.1, r⟩
    else match grantBond s b g with
      | some d => if overBond d 2048 then some ⟨5, bondEntries d, r⟩ else none
      | none => none
  match one with
  | some f => some f
  | none =>
    if share = 0 then none
    else
      let own := rowOwners s b r
      let outs := own.flatMap fun (q, e) => (planEntry s b e).dsts.map fun d => (outputOf q d, e)
      let dies := (List.range 12).findSome? fun d =>
        let ins := own.filter fun x => x.1 / 8 = d ∧ x.1 < 96
        let os := outs.filter fun x => x.1 / 8 = d ∧ x.1 < 96
        if (ins.map (·.1)).eraseDups.length ≥ 8 then some (⟨5, minEntry (ins.map (·.2)), r⟩ : PlanFail)
        else if (os.map (·.1)).eraseDups.length ≥ 8 then some ⟨5, minEntry (os.map (·.2)), r⟩
        else if overBond d 1792 then some ⟨5, bondEntries d, r⟩
        else none
      match dies with
      | some f => some f
      | none => (List.range 32).findSome? fun st => if overStack st 384 then some ⟨5, stackEntries st, r⟩ else none

/-- Code 6: the row does not route. -/
def checkRoute (s : State) (b r : Nat) : Option PlanFail :=
  let cs := rowConns s b r
  if cs = [] ∨ (routes (meshFails s) cs).isSome then none else some ⟨6, minEntry ((rowOwners s b r).map (·.2)), r⟩

/-- The first failure of a row. -/
def checkRow (s : State) (b r : Nat) : Option PlanFail :=
  [checkOwners, checkConflict, checkSplit, checkBudget, checkRoute].findSome? fun f => f s b r

/-- The first failure of a bank, in the order of R219. -/
def checkPlan (s : State) (b : Nat) : Option PlanFail :=
  if headerBad s b then some ⟨1, 0, 0⟩
  else match checkEntries s b with
    | some f => some f
    | none => (List.range (planLen s b)).findSome? (checkRow s b)

end Sys2Proof.Machine
end

