-- ==== Sys2Proof/Machine/Transfer.lean ====
section
/-! DEFINITION. Segments of MOVE and STREAM, walks and TLBs, and answers of other modules (R149, R150, R176 to R203, R323). -/
namespace Sys2Proof.Machine

/-- Fault codes of R198. -/
def xfNotValid : Fin 16 := 1
def xfPermission : Fin 16 := 2
def xfFormat : Fin 16 := 3
def xfStackDown : Fin 16 := 4
def xfRemoteDenied : Fin 16 := 5
def xfRemoteDown : Fin 16 := 6
def xfPoison : Fin 16 := 7
def xfDirEcc : Fin 16 := 8
def xfWriteErr : Fin 16 := 9

/-- The lower of two fault codes (R203). -/
def minFault (a b : Option (Fin 16)) : Option (Fin 16) :=
  match a, b with
  | some x, some y => some (if x ≤ y then x else y)
  | some x, none => some x
  | none, y => y

/-! ### Translation (R176 to R183) -/

/-- The TLB that translates a segment (R182, R191): the die's for a MOVE, that of controller VA[28:21] mod 8 of the die's own
base die for a STREAM. -/
def tlbOf (d : DieId) (stream : Bool) (va : Nat) : Fin 44 :=
  if stream then Fin.ofNat 44 (12 + 8 * (d.val / 3) + va / 0x200000 % 8) else Fin.ofNat 44 d.val

def vpnOf (va : Nat) : BitVec 27 := BitVec.ofNat 27 (va / 0x200000)

def tlbLookup (s : State) (t : Fin 44) (c : CtxId) (vpn : BitVec 27) : Option TlbEnt :=
  s.tlb.find? fun e => e.tlb = t ∧ e.ctx = c ∧ e.vpn = vpn

/-- Entries of a TLB (R182). -/
def tlbSize (t : Fin 44) : Nat := if t.val < 12 then 2048 else 256

/-- A successful walk is cached; in a full TLB a free value names the entry it replaces (log entry 16). -/
def tlbFill (s : State) (e : TlbEnt) : State :=
  let mine := s.tlb.filter fun x => x.tlb = e.tlb
  if (tlbLookup s e.tlb e.ctx e.vpn).isSome then s
  else if mine.length < tlbSize e.tlb then { s with tlb := s.tlb ++ [e] }
  else match mine[s.free.toNat % mine.length]? with
    | some v => { s with tlb := s.tlb.erase v ++ [e] }.tookFree
    | none => { s with tlb := s.tlb ++ [e] }

/-- What a leaf's PPN may name: a stack of this module or of another (R180). -/
def leafOk (own pa : Nat) : Bool :=
  match place own pa with
  | .stack _ _ => true
  | .remote _ off => off % 0x1000000000 < 0x900000000
  | _ => false

/-- One level of a walk (R178, R180): the index of the next table, or the fault. -/
def walkLevel (s : State) (table idx : Nat) : State × Except (Fin 16) Nat :=
  match dirRead s (dirPa (table * 0x1000 + 8 * idx)) with
  | (s₁, none) => (s₁, .error xfDirEcc)
  | (s₁, some e) =>
    (s₁, if !e.testBit 63 then .error xfNotValid
      else if bits e 62 12 ≠ 0 then .error xfFormat
      else .ok (bits e 11 0))

/-- The walk of R180: the root, three levels, and the leaf. -/
def walk (s : State) (c : CtxId) (va : Nat) : State × WalkResult :=
  let root := (s.rd64 (aHubCtxptr0 c)).toNat
  if !root.testBit 63 then (s, .fault xfNotValid)
  else if bits root 62 12 ≠ 0 then (s, .fault xfFormat)
  else match walkLevel s (bits root 11 0) (bits va 47 39) with
    | (s₁, .error f) => (s₁, .fault f)
    | (s₁, .ok t₂) => match walkLevel s₁ t₂ (bits va 38 30) with
      | (s₂, .error f) => (s₂, .fault f)
      | (s₂, .ok t₃) => match dirRead s₂ (dirPa (t₃ * 0x1000 + 8 * bits va 29 21)) with
        | (s₃, none) => (s₃, .fault xfDirEcc)
        | (s₃, some e) =>
          (s₃, if !e.testBit 63 then .fault xfNotValid
            else if bits e 60 56 ≠ 0 ∨ bits e 20 0 ≠ 0 then .fault xfFormat
            else if !leafOk (ownModule s) (bits e 47 21 * 0x200000) then .fault xfFormat
            else .ok (BitVec.ofNat 27 (bits e 47 21)) (e.testBit 62) (e.testBit 61))

/-- WALK_REQUEST (R180, R182). -/
def execWalkRequest (tlb : Fin 44) (c : CtxId) (va : BitVec 48) (s : State) : Host.Outcome State Fault Refusal :=
  let (s₁, r) := walk (s.take (.walkRequest tlb c va)) c va.toNat
  .next (s₁.send (.walkReply tlb c va r))

/-! ### Faults (R198, R199, R201, R203) -/

/-- The running transfer of a Caller: its figure, next segment, failure of lowest index, and whether it has stopped. -/
def xferOf (s : State) (d : DieId) (k : CallerId) : Option (Running × Nat × Option (Nat × Fin 16) × Bool) :=
  match (s.caller d k).run with
  | none => none
  | some r => match r.work with
    | .xfer n f b => some (r, n, f, b)
    | _ => none

def isStream (r : Running) : Bool := figOp r.fig = 4

/-- The event of a transfer fault (R476, R481): the line's PA for POISON, otherwise the VA of the segment. -/
def xferEvent (d : DieId) (k : CallerId) (r : Running) (p : Part) (code : Fin 16) (pa : Nat) : FaultReport :=
  let x := xferDesc r.desc
  { ctxEvent d k r.ctx 0x05 (code.val + if isStream r then 16 else 0) with
    space := if code = xfPoison then 2 else 3
    addr := BitVec.ofNat 48 (if code = xfPoison then pa else p.va)
    master := if isStream r then 6 else 2
    access := if x.dir = 1 then 1 else 0 }

/-- The figure holds with its transfer fault once no segment is outstanding: the in-flight record names the lowest segment
not completed, HUB_XLF shows the fault, and the Caller holds (R199, R203). -/
def xferHold (s : State) (d : DieId) (k : CallerId) (r : Running) (idx : Nat) (code : Fin 16) : State :=
  let x := xferDesc r.desc
  let p := ((segments x)[idx]?).getD ⟨0, 0, 0, false⟩
  let i := callerNo d k
  let rec₁ : XlfRec :=
    { w0 := BitVec.ofNat 32 p.va
      w1 := BitVec.ofNat 32 (2 ^ 31 + code.val * 2 ^ 27 + (if x.dir = 1 then 2 ^ 26 else 0) + (if isStream r then 2 ^ 25 else 0) +
        (if p.scale then 2 ^ 24 else 0) + r.ctx.val * 2 ^ 16 + p.va / 2 ^ 32 % 2 ^ 16)
      w2 := BitVec.ofNat 32 idx
      w3 := BitVec.ofNat 32 (figOperator r.fig * 65536 + figLayer r.fig) }
  let s₁ := (((s.wr (aHubXlf0 i) rec₁.w0).capture (aHubXlf1 i) rec₁.w1).wr (aHubXlf2 i) rec₁.w2).wr (aHubXlf3 i) rec₁.w3
  hold (s₁.setCc d k r.ctx { s₁.cc d k r.ctx with
    xfer := some { desc := r.desc, seg := idx }
    relaunch := true
    xlf := some rec₁ }) d k r.ctx 0

/-- A segment of the running transfer fails: the failure of lowest index is kept, and the figure holds when nothing is
outstanding. -/
def xferFail (s : State) (d : DieId) (k : CallerId) (idx : Nat) (code : Fin 16) (pa : Nat) : State :=
  match xferOf s d k with
  | none => s
  | some (r, n, f, _) =>
    let f₁ := match f with
      | some (i, e) => if idx < i then (idx, code) else (i, e)
      | none => (idx, code)
    let s₁ := s.report (xferEvent d k r (((segments (xferDesc r.desc))[idx]?).getD ⟨0, 0, 0, false⟩) code pa)
    if segsLeft s₁ d k r.ctx = 0 then xferHold s₁ d k r f₁.1 f₁.2
    else setRun s₁ d k { r with work := .xfer n (some f₁) true }

/-! ### SEGMENT_ISSUE (R189 to R194) -/

/-- Requests of up to 2,048 bytes to the module that holds a remote page (R192, R194). -/
def remoteRequests (s : State) (g : Seg) (m : Nat) : State :=
  (List.range ((g.len + 2047) / 2048)).foldl (fun s i =>
    let off := 2048 * i
    let len := min 2048 (g.len - off)
    let what := RemoteWhat.segment g.die g.caller g.ctx g.idx off len
    if g.dir = 1 then
      xrequest s m { kind := 0x02, m := 0, tag := 0, addr := BitVec.ofNat 48 (g.pa + off), len := len,
                     data := s.bytes (sramPa g.die (g.sram + off)) len } what
    else xrequest s m { kind := 0x01, m := 0, tag := 0, addr := BitVec.ofNat 48 (g.pa + off), len := len } what) s

/-- Lines that the ledger admits of a segment: none for one between SRAM and SRAM (R188, R209). -/
def segLines (dir len : Nat) : Nat := if dir = 2 then 0 else (len + 127) / 128

/-- What a segment without a slot-plan entry asks of the ledger, in class 4 (R188, R209, R210, R216): lines through its stack,
and across the die's bond where the stack is of its own base die. The mesh connection to another base die or to a port is the
ledger's to choose (R16). -/
def segRequest (own : Nat) (d : DieId) (pa n : Nat) : LedReq :=
  { cls5 := false, requester := d.val, input := none, output := none
    stack := match place own pa with | .stack st _ => some (Fin.ofNat 32 st, n) | _ => none
    bond := match place own pa with | .stack st _ => if st / 8 = d.val / 3 then some (d, n) else none | _ => none }

/-- A translated segment is issued: a MOVE takes a mover tag, and a segment without a slot-plan entry joins the ledger's
queue. -/
def issue (s : State) (d : DieId) (k : CallerId) (r : Running) (n : Nat) (p : Part) (pa : Nat) : State :=
  let x := xferDesc r.desc
  let tag := if isStream r then none else freeTag s d k
  if !isStream r && tag.isNone then waitTag s d k
  else
    let lines := segLines x.dir p.len
    let g : Seg :=
      { die := d, caller := k, ctx := r.ctx, idx := n, stream := isStream r, scale := p.scale, dir := Fin.ofNat 3 x.dir,
        va := p.va, sram := p.sram, len := p.len, pa := pa, tag := tag, entry := x.entry, lines := lines, pc := r.pc
        issued := s.beat }
    let s₀ := if isStream r then s else tookTag s d k
    let s₁ := setRun { s₀ with segs := s₀.segs ++ [g] } d k { r with work := .xfer (n + 1) none false }
    let s₂ := if isStream r then s₁ else assignMovers (countTags s₁ d) d
    if x.entry ≠ 0 ∨ lines = 0 then s₂
    else s₂.ask (segRequest (ownModule s) d pa lines) (.seg d k r.ctx n) (some lines)

/-- A granted segment of another module sends its requests (R192, R194). A source in SRAM is read now that its data leave. -/
def sendRemote (s : State) (g : Seg) : State :=
  match (if g.dir = 2 then Place.none else place (ownModule s) g.pa) with
  | .remote m _ =>
    if g.dir = 1 then
      match sramCheck s g.die g.caller g.ctx masterMover [(g.sram, g.len)] with
      | (s₁, true) => remoteRequests s₁ g m
      | (s₁, false) => { s₁ with segs := s₁.segs.erase g }
    else remoteRequests s g m
  | _ => s

/-- The ledger grants `n` lines of a segment (R214, R218); with the last of them a segment of another module leaves. -/
def grantLines (s : State) (g : Seg) (n : Nat) : State :=
  if g.lines = 0 ∨ n = 0 then s
  else
    let g₁ := { g with lines := g.lines - n }
    let s₁ := { s with segs := s.segs.map fun x => if x = g then g₁ else x }
    if g₁.lines = 0 then sendRemote s₁ g₁ else s₁

/-- A MOVE's ranges in SRAM lie inside the window (R87). -/
def moveWindowOk (s : State) (d : DieId) (r : Running) (p : Part) : Bool :=
  let x := xferDesc r.desc
  windowOk s d r.win p.sram p.len && (x.dir ≠ 2 || windowOk s d r.win p.va p.len)

/-- A walk of a page is in flight. -/
def walking (s : State) (t : Fin 44) (c : CtxId) (va : Nat) : Bool :=
  s.walks.any fun w => w.tlb = t ∧ w.ctx = c ∧ w.vpn = vpnOf va

/-- A walk request goes to the hub (R182). -/
def startWalk (s : State) (t : Fin 44) (c : CtxId) (va : Nat) (quiet : Bool) : State :=
  { s with walks := s.walks ++ [{ tlb := t, ctx := c, vpn := vpnOf va, stale := false, quiet := quiet }],
           net := s.net ++ [.walkRequest t c (BitVec.ofNat 48 va)] }

/-- Walks ahead of segment `n` (R183): a free value of 0 to 4 says for how many of the segments after it (log entry 72). -/
def walkAhead (s : State) (d : DieId) (r : Running) (n : Nat) : State :=
  let x := xferDesc r.desc
  let rest := ((segments x).drop (n + 1)).take 4
  if rest = [] ∨ x.dir = 2 then s
  else
    (rest.take (s.free.toNat % 5)).foldl (fun s p =>
      let t := tlbOf d (isStream r) p.va
      if (tlbLookup s t r.ctx (vpnOf p.va)).isSome || walking s t r.ctx p.va then s else startWalk s t r.ctx p.va true) s.tookFree

/-- SEGMENT_ISSUE: the next segment of the running transfer is translated and issued once its predecessor has been. -/
def segmentIssue (s : State) (d : DieId) (k : CallerId) : State :=
  match xferOf s d k with
  | none => s
  | some (r, n, failed, stopped) =>
    let x := xferDesc r.desc
    match (segments x)[n]? with
    | none => s
    | some p =>
      let scalesOut := s.segs.any fun g => g.die = d ∧ g.caller = k ∧ g.ctx = r.ctx ∧ g.scale
      let kind := if isStream r then kindStream else kindMemory
      if stopped || failed.isSome || (s.caller d k).stop || !dieRuns s d then s
      else if isStream r && !p.scale && scalesOut then s
      else if x.entry ≠ 0 && (r.entryGone || entryRefused s x.entry kind r.ctx d 0) then refuseFigure s d k r.ctx 4
      else if !isStream r && !moveWindowOk s d r p then windowFault s d k r.ctx
      else if x.dir = 2 then issue s d k r n p 0
      else
        let t := tlbOf d (isStream r) p.va
        match tlbLookup s t r.ctx (vpnOf p.va) with
        | none =>
          if walking s t r.ctx p.va then s else walkAhead (startWalk s t r.ctx p.va false) d r n
        | some e =>
          let pa := e.ppn.toNat * 0x200000 + p.va % 0x200000
          if (x.dir = 0 && !e.rd) || (x.dir = 1 && !e.wr) then xferFail s d k n xfPermission pa
          else match place (ownModule s) pa with
            | .stack st _ => if stackServes s st then issue s d k r n p (localPa (ownModule s) pa) else xferFail s d k n xfStackDown pa
            | .remote _ _ => if isStream r then xferFail s d k n xfFormat pa else issue s d k r n p pa
            | _ => xferFail s d k n xfFormat pa

def execSegmentIssue (d : DieId) (k : CallerId) (s : State) : Host.Outcome State Fault Refusal := .next (segmentIssue s d k)

/-- WALK_REPLY (R182, R183, R185, R201): a success is cached; a fault stops every figure whose next segment it is, unless
its stop has begun; that of a walk ahead raises nothing. The result of a walk that an invalidation overtook is discarded. -/
def walkReply (s : State) (t : Fin 44) (c : CtxId) (va : BitVec 48) (r : WalkResult) : State :=
  let vpn := vpnOf va.toNat
  match s.walks.find? fun w => w.tlb = t ∧ w.ctx = c ∧ w.vpn = vpn with
  | none => s
  | some w =>
    let s₁ := { s with walks := s.walks.erase w }
    if w.stale then s₁
    else match r with
      | .ok ppn rd wr => tlbFill s₁ { tlb := t, ctx := c, vpn := vpn, ppn := ppn, rd := rd, wr := wr }
      | .fault code =>
        if w.quiet then s₁ else
        allCallers.foldl (fun s p =>
          match xferOf s p.1 p.2 with
          | none => s
          | some (q, n, failed, stopped) =>
            match (segments (xferDesc q.desc))[n]? with
            | none => s
            | some g =>
              if q.ctx = c && (xferDesc q.desc).dir ≠ 2 && decide (tlbOf p.1 (isStream q) g.va = t) && decide (vpnOf g.va = vpn) &&
                  !stopped && failed.isNone && !(s.caller p.1 p.2).stop then xferFail s p.1 p.2 n code 0
              else s) s₁

def execWalkReply (tlb : Fin 44) (c : CtxId) (va : BitVec 48) (r : WalkResult) (s : State) : Host.Outcome State Fault Refusal :=
  .next (walkReply (s.take (.walkReply tlb c va r)) tlb c va r)

/-! ### SEGMENT_COMPLETE (R150, R165, R168, R193, R199, R523) -/

/-- The Caller still runs the transfer that a segment belongs to. -/
def ownsSeg (s : State) (g : Seg) : Bool :=
  match xferOf s g.die g.caller with
  | some (r, _, _, _) => r.ctx = g.ctx && r.pc = g.pc
  | none => false

/-- Answers of another module are outstanding for the segment. -/
def remotesLeft (s : State) (g : Seg) : Bool :=
  s.remotes.any fun m => match m.what with
    | .segment d k c i _ _ => d = g.die && k = g.caller && c = g.ctx && i = g.idx
    | _ => false

/-- Bytes of a segment that completed successfully (R523, R524). -/
def countStream (s : State) (g : Seg) : State :=
  if ownsSeg s g then figCount s g.die g.caller g.ctx cntStream g.len
  else ctxCount (dieCount s g.die cntStream g.len) g.ctx g.die cntStream g.len

/-- Lines of a segment in SRAM that another segment of its figure writes too (R92). -/
def doubleLines (segs : List Part) (i : Nat) (sram len : Nat) : List Nat :=
  let run (p : Part) : Nat × Nat := (p.sram / 128, (p.sram + p.len + 127) / 128)
  let others := ((List.range segs.length).zip segs).filter fun e => e.1 ≠ i && (run e.2).1 < (sram + len + 127) / 128 && sram / 128 < (run e.2).2
  if others = [] then []
  else ((List.range ((sram + len + 127) / 128 - sram / 128)).map (sram / 128 + ·)).filter fun l =>
    others.any fun e => (run e.2).1 ≤ l && l < (run e.2).2

/-- A line of a die's SRAM whose content is undefined (R92): free values. -/
def freeLine (s : State) (d : DieId) (l : Nat) : State :=
  { s.write (sramPa d (128 * l)) ((List.range 16).flatMap fun i => leBytes 8 (Config.freeValue (s.freeCtr + i)).toNat) with
    freeCtr := s.freeCtr + 16 }

/-- The lines of SRAM that a segment has written and that another of its figure writes too are undefined (R92). -/
def undefineLines (s : State) (g : Seg) : State :=
  match xferOf s g.die g.caller with
  | some (r, _, _, _) =>
    if r.ctx = g.ctx && r.pc = g.pc && g.dir.val ≠ 1 then
      (doubleLines (segments (xferDesc r.desc)) g.idx g.sram g.len).foldl (fun s l => freeLine s g.die l) s
    else s
  | none => s

/-- Data of a segment that reach SRAM: a mover writes them through the main port where they come over the die's own bond or from
SRAM, and everything else lands (R83, R86, R191). -/
def reachSram (s s₁ : State) (g : Seg) : State :=
  let pa := sramPa g.die g.sram
  let own := match place (ownModule s) g.pa with | .stack st _ => st / 8 = g.die.val / 3 | _ => false
  undefineLines (if g.dir.val = 2 || (own && !g.stream) then s₁.mainPort pa g.len else landedOver s s₁ pa g.len) g

/-- The data of a local segment move: answers the fault met, if any, and none with `false` where the figure holds for a
poisoned SRAM word. -/
def moveData (s : State) (g : Seg) : State × Option (Fin 16) × Bool :=
  match g.dir, place (ownModule s) g.pa with
  | 0, .stack st off =>
    if !stackServes s st then (s, some xfStackDown, true)
    else
      let (s₁, ok) := stackRead s st off g.len
      if ok then (reachSram s₁ (s₁.copy g.pa (sramPa g.die g.sram) g.len) g, none, true) else (s₁, some xfPoison, true)
  | 1, .stack st _ =>
    if !stackServes s st then (s, some xfStackDown, true)
    else
      let (s₁, ok) := sramCheck s g.die g.caller g.ctx masterMover [(g.sram, g.len)]
      if ok then (s₁.copy (sramPa g.die g.sram) g.pa g.len, none, true) else (s₁, none, false)
  | 2, _ =>
    let (s₁, ok) := sramCheck s g.die g.caller g.ctx masterMover [(g.va, g.len)]
    if ok then (reachSram s₁ (s₁.copy (sramPa g.die g.va) (sramPa g.die g.sram) g.len) g, none, true) else (s₁, none, false)
  | _, _ => (s, none, true)

/-- PA of the first poisoned line of a segment. -/
def poisonPa (s : State) (g : Seg) : Nat := match (s.eccScan g.pa g.len).2 with | some w => lineStart w | none => g.pa

/-- A segment completes or fails, freeing its tag, once the ledger has granted all its lines (R209); with no other outstanding the figure is acknowledged, stops at the page
boundary, or holds. -/
def segmentComplete (s : State) (g : Seg) (fault : Option (Fin 16)) : State :=
  let remote := match place (ownModule s) g.pa with | .remote _ _ => g.dir ≠ 2 | _ => false
  if (remote && remotesLeft s g && fault.isNone) || (g.lines ≠ 0 && fault.isNone) || (g.tag.isSome && g.mover.isNone) then s
  else
    let (s₁, f, ok) := if remote then (if g.fail.isNone then undefineLines s g else s, g.fail, true)
      else if fault.isSome then
        (s, (match place (ownModule s) g.pa with
          | .stack st _ => if g.dir ≠ 2 && !stackServes s st then some xfStackDown else none
          | _ => none), true)
      else moveData s g
    let s₂ := assignMovers { s₁ with segs := s₁.segs.erase g } g.die
    if !ok then s₂
    else match minFault f fault with
      | some code => if ownsSeg s₂ g then xferFail s₂ g.die g.caller g.idx code (poisonPa s g) else s₂
      | none =>
        let s₃ := countStream s₂ g
        if !ownsSeg s₃ g then s₃
        else match xferOf s₃ g.die g.caller with
          | some (r, _, some (i, code), _) =>
            if segsLeft s₃ g.die g.caller g.ctx = 0 then xferHold s₃ g.die g.caller r i code else s₃
          | _ => figureAck s₃ g.die g.caller 0 0

/-- An issued segment of a Caller. -/
def segOf (s : State) (d : DieId) (k : CallerId) (c : CtxId) (i : Nat) : Option Seg :=
  s.segs.find? fun g => g.die = d ∧ g.caller = k ∧ g.ctx = c ∧ g.idx = i

def execSegmentComplete (d : DieId) (k : CallerId) (c : CtxId) (seg : Nat) (fault : Option (Fin 16)) (s : State) :
    Host.Outcome State Fault Refusal :=
  let s₁ := assignMovers s d
  .next (match segOf s₁ d k c seg with | none => s₁ | some g => segmentComplete s₁ g fault)

/-! ### Answers of another module (R194, R323) -/

/-- The fault code that an answer's STATUS maps to (R323). -/
def remoteFault (status : BitVec 8) : Option (Fin 16) :=
  match status.toNat with
  | 0 => none | 1 => some xfRemoteDenied | 2 => some xfPoison | 3 => some xfStackDown | _ => some xfWriteErr

/-- The status of a host command on another module's stack (log entry 17): a denial is an address error. -/
def remoteStatus (status : BitVec 8) : Status :=
  match status.toNat with
  | 0 => .ok | 1 => .address | 2 => .poison | _ => .stackDown

/-- A part of a segment is answered; with the last part the segment completes or fails. -/
def remoteAnswer (s : State) (d : DieId) (k : CallerId) (c : CtxId) (i off : Nat) (fault : Option (Fin 16)) (data : List Byte) :
    State :=
  match segOf s d k c i with
  | none => s
  | some g =>
    let g₁ := { g with fail := minFault g.fail fault }
    let s₁ := { s with segs := s.segs.map fun x => if x = g then g₁ else x }
    let s₂ := if fault.isNone && g.dir = 0 then s₁.landWrite (sramPa d (g.sram + off)) data else s₁
    if remotesLeft s₂ g₁ then s₂
    else
      let s₃ := assignMovers s₂ d
      match segOf s₃ d k c i with | some g₂ => segmentComplete s₃ g₂ none | none => s₃

/-- An answer reaches whoever asked. -/
def remoteReply (s : State) (x : XPort) (tag : BitVec 16) (status : BitVec 8) (data : List Byte) : State :=
  match remoteOf s x tag with
  | none => s
  | some w =>
    let s₁ := dropRemote s x tag
    match w with
    | .segment d k c i off len => remoteAnswer s₁ d k c i off (remoteFault status) (padTo len data)
    | .host key kind => s₁.complete key kind 0 (remoteStatus status) 0 (if status = 0 then data else [])
    | _ => s₁

/-- RD_DATA. -/
def execRdData (x : XPort) (tag : BitVec 16) (status : BitVec 8) (data : List Byte) (s : State) :
    Host.Outcome State Fault Refusal :=
  .next (remoteReply (xtake s x fun q => q.kind = 0x81 && q.tag = tag) x tag status data)

/-- WR_ACK. -/
def execWrAck (x : XPort) (tag : BitVec 16) (status : BitVec 8) (s : State) : Host.Outcome State Fault Refusal :=
  .next (remoteReply (xtake s x fun q => q.kind = 0x82 && q.tag = tag) x tag status [])

/-! ### Requests of another module (R194, R195, R377) -/

/-- A remote window admits module `m` to a run of bytes of a stack. -/
def windowAdmits (s : State) (m : ModId) (pa n : Nat) (wr : Bool) : Bool :=
  let u := pa / 0x200000
  (List.range 8).any fun i =>
    let w0 := s.rd (aHubRmtwin0 i)
    let w1 := s.rd (aHubRmtwin1 i)
    w0.getLsbD 31 && w0.getLsbD (20 + m.val) && getF w0 19 0 ≤ u && (pa + n - 1) / 0x200000 ≤ getF w1 19 0 && (!wr || w1.getLsbD 31)

/-- STATUS of an answer (R323). -/
def answerCode : Status → BitVec 8
  | .ok => 0 | .poison => 2 | .stackDown => 3 | _ => 1

/-- RD_REQ: served, or denied. -/
def execRdReq (x : XPort) (m : ModId) (tag : BitVec 16) (pa : BitVec 48) (len : Nat) (s : State) :
    Host.Outcome State Fault Refusal :=
  let s₁ := xtake s x fun q => q.kind = 0x01 && q.tag = tag && q.m = m
  let a := localPa (ownModule s) pa.toNat
  let (s₂, st) := match place (ownModule s) pa.toNat with
    | .stack n _ =>
      if windowAdmits s₁ m a len false then memRead (s₁.askLines (portRequester x) false (.inbound x (Fin.ofNat 32 n) false) a len)
        masterRemote a len
      else (s₁, .address)
    | _ => (s₁, .address)
  .next (xsend s₂ x true
    { kind := 0x81, m := m, tag := tag, addr := pa, len := if st = .ok then len else 0, status := answerCode st,
      data := if st = .ok then s₂.bytes a len else [] })

/-- A partner's copy write: on X14, from the partner, while SYNCING, to this module's own SRAM or stacks (R377). -/
def copyWrite (s : State) (x : XPort) (m : ModId) (pa : Nat) : Bool :=
  x.val = partnerPort && prtState s = 5 && s.fld aPrtCfg 26 24 = m.val && decide (pa < 0x20100000000)

/-- WR_REQ: applied, or denied; a copy write is class 5 traffic (R210, R377). -/
def execWrReq (x : XPort) (m : ModId) (tag : BitVec 16) (pa : BitVec 48) (data : List Byte) (s : State) :
    Host.Outcome State Fault Refusal :=
  let s₁ := xtake s x fun q => q.kind = 0x02 && q.tag = tag && q.m = m
  let a := localPa (ownModule s) pa.toNat
  let stack := match place (ownModule s) pa.toNat with | .stack n _ => some n | _ => none
  let copy := copyWrite s₁ x m pa.toNat
  let allowed := copy || (stack.isSome && windowAdmits s₁ m a data.length true)
  let use : GrantUse := match stack with | some n => .inbound x (Fin.ofNat 32 n) true | none => .other
  let (s₂, st) := if allowed then memWrite (s₁.askLines (portRequester x) copy use a data.length) masterRemote a data
    else (s₁, .address)
  .next (xsend s₂ x true { kind := 0x82, m := m, tag := tag, addr := pa, status := answerCode st })

end Sys2Proof.Machine
end

