-- ==== Sys2Proof/Machine/Ledger.lean ====
section
/-! DEFINITION. What a connection carries, the base-die links, and the ledger's grants (R205 to R218, R225 to R228, R235, R248). -/
namespace Sys2Proof.Machine

/-! ### What a connection carries (R205, R227, R248, R252) -/

/-- Lanes set in a usable set. -/
def laneCount (w : Word) : Nat := ((List.range 18).filter fun l => w.getLsbD l).length

/-- Data-lane count of a port: the smaller of its usable sets, at most 16; the port is down below 8 (R248). -/
def portLanes (s : State) (p : Nat) : Nat := min 16 (min (laneCount (s.rd (aRngUse p))) (laneCount (s.rd (aRngRxuse p))))

/-- Flits of a slot for a mode and a lane count (R205). -/
def slotFlits (mode n : Nat) : Nat :=
  if n < 8 then 0 else (match mode with | 0 => 10 | 1 => 20 | _ => 26) * n / 16

/-- A split entry owns an input of a row: every connection of the slot then runs at PAM4 at most (R227, R252). -/
def rowSplit (s : State) (row : Nat) : Bool :=
  (rowOwners s (activeBank s) row).any fun x => (planEntry s (activeBank s) x.2).isSplit

/-- The lanes that carry the data positions from a transmitting port to receiving ones, in ascending order: the lowest 16 that it
may send on and all of them receive on (R248); a port that is down carries none (R299). -/
def connSet (s : State) (tx : Nat) (rxs : List Nat) : List Nat :=
  if (tx :: rxs).any fun p => portLanes s p < 8 then []
  else (((List.range 18).filter fun l => s.bit (aRngUse tx) l && rxs.all fun rx => s.bit (aRngRxuse rx) l)).take 16

/-- Data lanes from a transmitting port to a receiving one. -/
def connLanes (s : State) (tx rx : Nat) : Nat := (connSet s tx [rx]).length

/-- The mode of a connection in a slot of a row: the lowest of its ports' (R227, R252). -/
def connMode (s : State) (row tx : Nat) (rxs : List Nat) : Nat :=
  let mode (x : Nat) : Nat := s.fld (aRngState x) 11 10
  rxs.foldl (fun n o => min n (mode o)) (if rowSplit s row then min 1 (mode tx) else mode tx)

/-- Lanes and flits that a slot of a row gives an entry at input `q`. -/
def entryCapacity (s : State) (row : Nat) (p : PlanEntry) (q : Nat) : Nat × Nat :=
  let outs := p.dsts.map (outputOf q)
  let n := (connSet s q outs).length
  (n, slotFlits (connMode s row q outs) n)

/-- Source of the collector and port number within it for a mesh position (R475, R477). -/
def portSource (q : Nat) : Nat × Nat :=
  if q < 96 then (q / 8, q % 8) else if q < 112 then (26, q - 96) else (29, q - 112)

/-- Event 0x08 or 0x32: a connection below 8 lanes (R248). -/
def narrowEvent (q lane : Nat) : FaultReport :=
  let (src, p) := portSource q
  contained src (if q < 96 then 0x08 else 0x32) 3 (p + lane * 256) 0

/-- An event that its source has not sent yet. -/
def reportOnce (s : State) (r : FaultReport) : State := if s.reports.contains r then s else s.report r

/-! ### The base-die links (R207, R208, R210 to R213) -/

/-- Messages packed into flits of a class, up to 15 of 16 bytes in each (R208). -/
def packLink (cls : Nat) : Nat → List LinkItem → List LinkFlit
  | 0, _ => []
  | _, [] => []
  | n + 1, x :: xs => { cls := cls, msgs := ((x :: xs).take 15).filterMap (·.msg) } :: packLink cls n ((x :: xs).drop 15)

/-- The 20 flit places of a slot on one direction of a link, and what is left waiting: in reserved slots class 6 takes the first
upward place and class 5 one downward place ahead of class 3; then class 1, class 3 and class 5 (R208, R211 to R213). -/
def placeLink (slot : Nat) (up : Bool) (w : List LinkItem) : List LinkFlit × List LinkItem :=
  let ofCls (c : Nat) : List LinkItem := w.filter fun x => x.cls = c
  let c6 : List LinkFlit := if up && slot % 256 = 128 then [{ cls := 6 }] else []
  let f1 := (packLink 1 20 (ofCls 1)).take (20 - c6.length)
  let n1 := c6.length + f1.length
  let first5 := if !up && slot % 64 = 62 then min 1 (min (ofCls 5).length (20 - n1)) else 0
  let f3 := (packLink 3 20 (ofCls 3)).take (20 - n1 - first5)
  let n3 := n1 + first5 + f3.length
  let rest5 := min ((ofCls 5).length - first5) (20 - n3)
  let five (n : Nat) : List LinkFlit := List.replicate n { cls := 5 }
  (c6 ++ f1 ++ five first5 ++ f3 ++ five rest5,
    (ofCls 1).drop (15 * f1.length) ++ (ofCls 3).drop (15 * f3.length) ++ (ofCls 5).drop (first5 + rest5))

/-- Upward places that classes 1 and 3 leave to class 6, and the one reserved for it (R213). -/
def places6 (fs : List LinkFlit) : Nat := 20 - (fs.filter fun f => f.cls ≠ 6).length

/-- The places of a slot on one direction of a link. -/
def placeSlot (slot : Nat) (b : BaseLinks) (l : Nat) : BaseLinks :=
  let z {α : Type} : Nat → List α := fun _ => []
  let up := l % 2 = 0
  let (fs, rest) := placeLink slot up (SMap.get z b.waiting l)
  { waiting := SMap.set z b.waiting l rest
    places := SMap.set z b.places l fs
    free6 := if up then SMap.set (fun _ => 20) b.free6 l (places6 fs) else b.free6 }

/-- Every link of a slot. -/
def linkSlot (s : State) (slot : Nat) : State := { s with base := (List.range 8).foldl (placeSlot slot) s.base }

/-! ### What the ledger holds of a slot (R209, R212, R214, R225, R228, R278) -/

def grantsOf (s : State) (slot : Nat) : List Grant := s.mesh.grants.filter fun g => g.slot.toNat = slot
def grantsAt (s : State) (slot : Nat) : List LedReq := (grantsOf s slot).map (·.req)

/-- Connections of a request on the mesh. -/
def reqConn (r : LedReq) : List Conn :=
  match r.input, r.output with
  | some i, some o => [{ inp := i, out := o, fan := 1 }]
  | _, _ => []

/-- A port whose plan connections the hub sets up: not one that is searched, tested or down (R278). -/
def connects (s : State) (q : Nat) : Bool := rngState s q ≠ rngSearch && rngState s q ≠ rngMargin && rngState s q ≠ rngDown

/-- Connections that the plan makes in a slot, without those that have lost their row (R228) and those of ports that are down
(R278). -/
def slotConns (s : State) (slot : Nat) : List Conn :=
  if planLen s (activeBank s) = 0 then []
  else (rowConns s (activeBank s) (slotRow s slot)).filter fun c =>
    !s.mesh.lost.contains (slotRow s slot, c.inp) && connects s c.inp && connects s c.out

def slotGrants (s : State) (slot : Nat) : List (Nat × Nat × Nat × Nat) :=
  if planLen s (activeBank s) = 0 then [] else rowGrants s (activeBank s) (slotRow s slot)

/-- A reference position that is free for tests: it has passed its own, and is not in loop use (R272, R275, R278). -/
def refFree (s : State) (h : Nat) : Bool :=
  !s.bit aHubSpare h && (rngState s (120 + h) = rngUp || rngState s (120 + h) = rngTest)

/-- Ports tested against the reference positions, which transmit to them and receive from them (R275). -/
def testedPorts : List Nat := List.range 96 ++ [112, 113, 114, 115]

/-- The port that a margin test runs against, while it runs (R275, R278). -/
def partnerOf (s : State) (q : Nat) : Option Nat :=
  if rngState s q = rngMargin then (SMap.get (fun _ => ({} : PortCal)) s.opt.ports q).partner.map (·.val) else none

/-- A partner for a margin test while the module is in service: a reference position, one that no other test uses before one that
another uses, or without one the same-numbered port of another die that is UP (R275, R278). -/
def testPartner (s : State) (q : Nat) : Option Nat :=
  let refs := (List.range 8).filter (refFree s)
  match refs.find? fun h => !testedPorts.any fun p => partnerOf s p = some (120 + h) with
  | some h => some (120 + h)
  | none => match refs with
    | h :: _ => some (120 + h)
    | [] => if q < 96 then ((List.range 12).map fun d => 8 * d + q % 8).find? fun p => p ≠ q && rngState s p = rngUp else none

/-- Test connections: each port whose margin test runs to its partner and back (R275, R278), a reference position's test to the
next of them, and a base-die link's light back to its own end in loop mode (R273). -/
def testConns (s : State) : List (List Conn) :=
  (testedPorts ++ (List.range 8).map (120 + ·)).filterMap (fun q => (partnerOf s q).map fun p =>
    if p = q then [{ inp := q, out := q, fan := 1 }]
    else [{ inp := q, out := p, fan := 1 }, { inp := p, out := q, fan := 1 }]) ++
    (List.range 4).filterMap fun k => if rngState s (116 + k) = rngTest then some [{ inp := 116 + k, out := 116 + k, fan := 1 }] else none

/-- Elements that the light of a connection passes, with the setting's codes. -/
def pathElements (m : MeshCodes) (q : Nat) : List Nat :=
  ((List.range 13).foldl (fun (acc : List Nat × Nat) t =>
    let e := 64 * t + acc.2 / 2
    (acc.1 ++ [e], shuffle t (if codeOf m e = codeCross then mate acc.2 else acc.2))) ([], q)).1

/-- The 3 dB of a margin test: one element of its path at code 32, whose other output reaches no receiver of the slot (R275). -/
def halvePath (cs : List Conn) (m : MeshCodes) (c : Conn) : MeshCodes :=
  let half (e : Nat) : MeshCodes := (e, 32) :: m.filter fun x => x.1 ≠ e
  let ok (e : Nat) : Bool := match meshOutput (half e) (cs.map (·.inp)).eraseDups with
    | none => false
    | some ls => ls.all fun l => l.src ≠ c.inp || l.pos = c.out || !cs.any fun x => x.out = l.pos
  match (pathElements m c.inp).find? ok with
  | some e => half e
  | none => m

/-- Self-test light of the reference positions in slots with s mod 256 = 192 (R272): each position sends to another in turn from
one such slot to the next (DESIGN CHOICE, log entry 73). -/
def selfTest (s : State) (slot : Nat) : List (List Conn) :=
  if slot % 256 ≠ 192 ∨ bootState s ≠ bootReady then []
  else (List.range 8).filterMap fun h =>
    let o := (h + slot / 256) % 8
    if refFree s h && refFree s o then some [{ inp := 120 + h, out := 120 + o, fan := 1 }] else none

/-- Two connections want the same input or output. -/
def clash (a b : List Conn) : Bool := a.any fun x => b.any fun y => x.inp = y.inp || x.out = y.out

/-- Connections joined by those tests that route together with them, taken in turn (R225, R272, R278). -/
def withTests (fails : List Nat) (cs : List Conn) (tests : List (List Conn)) : List Conn :=
  tests.foldl (fun cs t => if !clash cs t && (routes fails (cs ++ t)).isSome then cs ++ t else cs) cs

/-- What stands on the mesh in a slot before a request is granted: the plan's row and the tests. -/
def slotHeld (s : State) (slot : Nat) : List Conn := withTests (meshFails s) (slotConns s slot) (testConns s ++ selfTest s slot)

/-- Lines that granted requests take through a stack or across a bond. -/
def reqStack (rs : List LedReq) (st : Nat) : Nat :=
  rs.foldl (fun n r => n + match r.stack with | some (x, k) => if x.val = st then k else 0 | none => 0) 0

def reqBond (rs : List LedReq) (d : Nat) : Nat :=
  rs.foldl (fun n r => n + match r.bond with | some (x, k) => if x.val = d then k else 0 | none => 0) 0

/-- Lines of a stack and of a bond that the plan and the grants already given leave in a slot (R209). -/
def stackLeft (s : State) (slot st : Nat) : Nat := 512 - (stackLines (slotGrants s slot) st + reqStack (grantsAt s slot) st)
def bondLeft (s : State) (slot d : Nat) : Nat :=
  2048 - (bondLines s (activeBank s) (slotGrants s slot) d + reqBond (grantsAt s slot) d)

/-- The plan and the grants already given leave a slot's resources free for a request (R209, R212), and its connection has its
lanes (R248). -/
def resourcesFree (s : State) (slot : Nat) (r : LedReq) : Bool :=
  let conns := slotHeld s slot ++ (grantsAt s slot).flatMap reqConn
  !clash conns (reqConn r) && ((reqConn r).all fun c => decide (8 ≤ connLanes s c.inp c.out)) &&
    (match r.stack with | some (st, n) => decide (n ≤ stackLeft s slot st.val) | none => true) &&
    (match r.bond with | some (d, n) => decide (n ≤ bondLeft s slot d.val) | none => true)

/-- A mesh grant is given only where it routes together with the slot's other connections (R214, R225). -/
def grantRoutes (s : State) (slot : Nat) (r : LedReq) : Bool :=
  reqConn r = [] || (routes (meshFails s) (slotHeld s slot ++ (grantsAt s slot).flatMap reqConn ++ reqConn r)).isSome

/-- The guest's share in the 16 slots that end with this one (R235). -/
def guestMay (s : State) (slot : Nat) : Bool :=
  (s.mesh.guestSlots.filter fun g => slot < g + 16).length < s.fld aGfwShare 2 0

/-! ### Requests on the mesh (R16, R194, R209) -/

/-- The mesh positions of a base die's ports, and of a die's. -/
def basePorts (k : Nat) : List Nat := (List.range 24).map (24 * k + ·)
def diePorts (d : Nat) : List Nat := (List.range 8).map (8 * d + ·)

/-- The segment that a request is for. -/
def useSeg (s : State) : GrantUse → Option Seg
  | .seg d k c i => s.segs.find? fun g => g.die = d ∧ g.caller = k ∧ g.ctx = c ∧ g.idx = i
  | _ => none

/-- Mesh inputs and outputs one of which a request must connect: for a segment of another base die's stack (R16), for one of
another module, and for a request of another module at its port (R194). None for traffic that takes no mesh connection. -/
def useEnds (s : State) (u : GrantUse) : Option (List Nat × List Nat) :=
  match u with
  | .inbound x st wr => some (if wr then ([96 + x.val], basePorts (st.val / 8)) else (basePorts (st.val / 8), [96 + x.val]))
  | _ => match useSeg s u with
    | none => none
    | some g =>
      let own := diePorts g.die.val
      let ends (far : List Nat) : List Nat × List Nat := if g.dir = 1 then (own, far) else (far, own)
      match place (ownModule s) g.pa with
      | .stack st _ => if st / 8 = g.die.val / 3 then none else some (ends (basePorts (st / 8)))
      | .remote m _ => some (ends [96 + peerPort s m])
      | _ => none

/-- Lines that a connection carries in a slot: its flits of 240 bytes (R205). -/
def connLines (s : State) (i o : Nat) : Nat :=
  slotFlits (min (s.fld (aRngState i) 11 10) (s.fld (aRngState o) 11 10)) (connLanes s i o) * 240 / 128

/-- A request with the connection it would take, where it needs one. -/
def withEnds (s : State) (h : Queued) : List LedReq :=
  match useEnds s h.use with
  | none => [h.req]
  | some (ins, outs) => ins.flatMap fun i => outs.map fun o => { h.req with input := some i, output := some o }

/-- A request served slot by slot asks a slot for as many of its lines as the slot has. Answers the lines. -/
def fitLines (s : State) (slot : Nat) (h : Queued) (r : LedReq) : LedReq × Nat :=
  match h.left with
  | none => (r, match r.stack, r.bond with | some (_, n), _ => n | none, some (_, n) => n | _, _ => 0)
  | some left =>
    let a := match r.stack with | some (st, _) => min left (stackLeft s slot st.val) | none => left
    let b := match r.bond with | some (d, _) => min a (bondLeft s slot d.val) | none => a
    let n := match r.input, r.output with | some i, some o => min b (connLines s i o) | _, _ => b
    ({ r with stack := r.stack.map fun x => (x.1, n), bond := r.bond.map fun x => (x.1, n) }, n)

/-- What a slot could grant of a request: each form of it that finds its resources free. -/
def offers (s : State) (slot : Nat) (h : Queued) : List (LedReq × Nat) :=
  ((withEnds s h).map (fitLines s slot h)).filter fun x => (h.left.isNone || x.2 ≠ 0) && resourcesFree s slot x.1

/-! ### Decisions (R212, R214, R235, R240) -/

/-- Numbers of the resources that a request contends for, by class (R212). -/
def reqResources (r : LedReq) : List Nat :=
  let base := if r.cls5 then 512 else 0
  (match r.stack with | some (st, _) => [base + st.val] | none => []) ++
    (match r.bond with | some (d, _) => [base + 32 + d.val] | none => []) ++
    (match r.input with | some i => [base + 64 + i] | none => []) ++
    (match r.output with | some o => [base + 192 + o] | none => [])

/-- A head waits through contention: counted once it has waited more than 16 slots in class 4 (R240). -/
def contend (s : State) (h : Queued) : State :=
  let late := !h.req.cls5 && !h.counted && decide (h.waited ≥ 16)
  let h' : Queued := { h with waited := h.waited + 1, counted := h.counted || late }
  let s₁ := { s with mesh := { s.mesh with queue := s.mesh.queue.map fun x => if x = h then h' else x } }
  if late then s₁.count aHubLedstat0 15 0 1 else s₁

/-- A grant: the request leaves its queue with the last of its lines. -/
def give (s : State) (slot : Nat) (h : Queued) (r : LedReq) (n : Nat) : State :=
  let left := h.left.map (· - n)
  let queue := match left with
    | some (k + 1) => s.mesh.queue.map fun x => if x = h then { h with left := some (k + 1), waited := 0 } else x
    | _ => s.mesh.queue.erase h
  { s with mesh := { s.mesh with
      queue := queue
      grants := s.mesh.grants ++ [{ req := r, slot := BitVec.ofNat 64 slot, use := h.use, lines := n }]
      served := (reqResources r).foldl (fun m x => SMap.set (fun _ => 29) m x r.requester) s.mesh.served
      guestSlots := if r.requester = guestRequester then (slot :: s.mesh.guestSlots).take 16 else s.mesh.guestSlots } }

/-- One head of a queue: granted, deferred for routing, held by the guest's share, or left waiting for a resource. -/
def decideHead (s : State) (slot : Nat) (h : Queued) : State :=
  if h.req.requester = guestRequester && !guestMay s slot then s
  else match offers s slot h with
    | [] => contend s h
    | xs => match xs.find? fun x => grantRoutes s slot x.1 with
      | none => s.count aHubLedstat1 31 16 1
      | some x => give s slot h x.1 x.2

/-- Requesters from the one served last at a resource: how far a head stands from its turn, the nearest of its resources
(R212). -/
def turnOf (s : State) (h : Queued) : Nat :=
  (reqResources h.req).foldl (fun n x => min n ((h.req.requester + 59 - SMap.get (fun _ => 29) s.mesh.served x) % 30)) 29

/-- Heads of a class in round-robin order at what they contend for; a request that reached the ledger in slot `σ` can be granted
from slot σ + 2 on (R212, R214). -/
def heads (s : State) (cls5 : Bool) (slot : Nat) : List Queued :=
  let hs := (List.range 30).filterMap fun n =>
    (s.mesh.queue.find? fun x => x.req.cls5 = cls5 && x.req.requester % 30 = n).bind fun h =>
      if h.slot.toNat + 2 ≤ slot then some h else none
  (List.range 30).flatMap fun t => hs.filter fun h => turnOf s h = t

/-- Requests of segments that are gone leave their queues. -/
def dropStale (s : State) : State :=
  { s with mesh := { s.mesh with queue := s.mesh.queue.filter fun q =>
      match q.use with | .seg _ _ _ _ => (useSeg s q.use).isSome | _ => true } }

/-- The ledger's decisions for a slot: class 4 first, class 5 first in slots with s mod 64 = 62 (R212). -/
def decideSlot (s₀ : State) (slot : Nat) : State :=
  let s := dropStale s₀
  let first := slot % 64 = 62
  let s₁ := (heads s first slot).foldl (fun s h => decideHead s slot h) s
  (heads s₁ (!first) slot).foldl (fun s h => decideHead s slot h) s₁

/-- A request that the ledger can serve at all: positions that the mesh connects for requests, which are neither the base-die
links' nor the spares (R207, R209), and of the guest class 4 alone, while the firewall is OPEN (R231, R235, R236). -/
def ledgerTakes (s : State) (r : LedReq) : Bool :=
  (match r.input with | some i => decide (i < 116) | none => true) && (match r.output with | some o => decide (o < 116) | none => true) &&
    decide (r.requester < 30) &&
    (r.requester ≠ guestRequester || (!r.cls5 && decide (gfwState s = gfwOpened) && !guestFull s))

/-- LEDGER_REQUEST: the request joins its requester's queue. -/
def execLedgerRequest (r : LedReq) (s : State) : Host.Outcome State Fault Refusal :=
  .next (if ledgerTakes s r then s.ask r .other none else s)

/-- What a slot's grants admit: the lines of segments (R214). -/
def useGrants (s : State) (slot : Nat) : State :=
  (grantsOf s slot).foldl (fun s g => match useSeg s g.use with | some x => grantLines s x g.lines | none => s) s

/-! ### The mesh in a slot (R223 to R228, R241, R272) -/

/-- The setting of a slot: codes that carry its row, its grants and its tests, and the loops that it uses. -/
def slotRoutes (s : State) (slot : Nat) : Option (MeshCodes × List (Nat × Conn)) × List Conn :=
  let cs := slotConns s slot ++ (grantsAt s slot).flatMap reqConn
  let settled := (meshFails s).filter fun e => !s.mesh.rerouting.any fun r => r.val = e
  let all := withTests settled cs (testConns s ++ selfTest s slot)
  (if all = [] then none else routes settled all, all)

/-- Settings of the mesh for a slot: a failed element is BAR (R223 to R228). -/
def slotSettings (s : State) (slot : Nat) : SMap Nat :=
  let tested (c : Conn) : Bool := partnerOf s c.inp = some c.out || partnerOf s c.out = some c.inp
  match slotRoutes s slot with
  | (none, _) => []
  | (some (found, _), cs) =>
    let codes := (cs.filter tested).foldl (halvePath cs) found
    (codes.filter fun c => !(meshFails s).contains c.1).foldl (fun m c => SMap.set (fun _ => codeBar) m c.1 c.2) []

/-- Loops as the bits of HUB_SPARE.LOOP. -/
def loopBits (hs : List Nat) : Nat := hs.eraseDups.foldl (fun n h => n + 2 ^ h) 0

/-- The mesh takes the settings of a slot; HUB_SPARE.LOOP shows the loops of the plan and those of the slot (R241). -/
def setMesh (s : State) (slot : Nat) : State :=
  let r := slotRoutes s slot
  let used := match r.1 with | some (_, hs) => hs.map (·.1) | none => []
  let test := (r.2.filter fun c => 120 ≤ c.inp && 120 ≤ c.out).map fun c => (c.inp, c.out)
  ({ s with mesh := { s.mesh with settings := slotSettings s slot, test := test } }).setFld aHubSpare 7 0
    (loopBits (s.mesh.loops ++ used))

/-! ### Lines of the slot plan (R218) -/

/-- A row connects an entry's source to a die, with the lanes of R248 (R218). -/
def rowReaches (s : State) (row e : Nat) (d : DieId) : Bool :=
  let p := planEntry s (activeBank s) e
  (rowOwners s (activeBank s) row).any fun x =>
    x.2 = e && !s.mesh.lost.contains (row, x.1) && p.dsts.contains d.val && decide (8 ≤ connLanes s x.1 (outputOf x.1 d.val))

/-- Lines of one electrical grant go to the entry's segments of that stack, oldest first. Lines of another base die's stack
need the mesh input that the same row gives to the entry (R16, R218). -/
def rowGrantUse (s : State) (row : Nat) (g : Nat × Nat × Nat × Nat) : State :=
  let mine := s.segs.filter fun x => x.entry = g.1 && x.lines ≠ 0 &&
    (match place (ownModule s) x.pa with
      | .stack st _ => st = g.2.1 && (st / 8 = x.die.val / 3 || rowReaches s row g.1 x.die)
      | _ => false)
  (mine.foldl (fun (acc : State × Nat) x => (grantLines acc.1 x (min acc.2 x.lines), acc.2 - min acc.2 x.lines)) (s, g.2.2.1)).1

/-- An entry of the row whose segments wait behind a connection of fewer than 8 lanes: reported (R248). -/
def rowNarrow (s : State) (row : Nat) : State :=
  (rowOwners s (activeBank s) row).foldl (fun s x =>
    let p := planEntry s (activeBank s) x.2
    let waits := s.segs.any fun g => g.entry = x.2 && g.lines ≠ 0
    if waits && (p.kind = kindStream || p.kind = kindMemory) && p.dsts ≠ [] && !rowReaches s row x.2 (Fin.ofNat 12 (p.dsts.headD 0))
      then reportOnce s (narrowEvent x.1 0) else s) s

/-- The electrical grants of a slot's row. -/
def rowLines (s : State) (slot : Nat) : State :=
  if planLen s (activeBank s) = 0 then s
  else rowNarrow ((slotGrants s slot).foldl (fun s g => rowGrantUse s (slotRow s slot) g) s) (slotRow s slot)

end Sys2Proof.Machine
end

