-- ==== Sys2Proof/Machine/Crc.lean ====
section
/-! DEFINITION. The two checks of the spec: CRC-32 with the link layer's polynomial (R322) and CRC-64 (R153). -/
namespace Sys2Proof.Machine

/-- One byte into the CRC-32 register: reflected, polynomial 0x04C1_1DB7. -/
def crc32Byte (r : BitVec 32) (b : Byte) : BitVec 32 :=
  (List.range 8).foldl (fun r _ => if r.getLsbD 0 then (r >>> 1) ^^^ 0xEDB88320#32 else r >>> 1) (r ^^^ b.zeroExtend 32)

/-- CRC-32 of R322: initial value and final XOR 0xFFFF_FFFF. -/
def crc32 (bs : List Byte) : BitVec 32 := (bs.foldl crc32Byte 0xFFFFFFFF#32) ^^^ 0xFFFFFFFF#32

/-- One byte into the CRC-64 register: most significant bit first, polynomial 0x42F0_E1EB_A9EA_3693. -/
def crc64Byte (r : BitVec 64) (b : Byte) : BitVec 64 :=
  (List.range 8).foldl (fun r _ => if r.getLsbD 63 then (r <<< 1) ^^^ 0x42F0E1EBA9EA3693#64 else r <<< 1)
    (r ^^^ (b.zeroExtend 64 <<< 56))

/-- CRC-64 of R153. -/
def crc64 (bs : List Byte) : BitVec 64 := bs.foldl crc64Byte 0

end Sys2Proof.Machine
end

