-- ==== Sys2Proof/Machine/Wire.lean ====
section
/-! DEFINITION. Flits as bytes (R321, R322) and messages as bytes (R323). -/
namespace Sys2Proof.Machine

/-- TYPE codes of R322. -/
def tIdle : Nat := 0
def tLctl : Nat := 1
def tMsg : Nat := 2
def tPlan : Nat := 3

/-- A flit's fields (R321); `credit` is the counter that CVC names. -/
structure Flit where
  typ : Nat
  vc : Nat
  cvc : Bool
  first : Bool
  seq : BitVec 16
  ack : BitVec 16
  entry : BitVec 12
  plen : Nat
  payload : List Byte
  credit : BitVec 32
deriving DecidableEq, Repr

/-- The first 252 bytes of a flit. -/
def flitBody (f : Flit) : List Byte :=
  [BitVec.ofNat 8 (f.typ % 16 + f.vc % 4 * 16 + (if f.cvc then 64 else 0) + (if f.first then 128 else 0))] ++
    leBytes 2 f.seq.toNat ++ leBytes 2 f.ack.toNat ++ leBytes 2 f.entry.toNat ++ [BitVec.ofNat 8 f.plen] ++
    padTo 240 f.payload ++ leBytes 4 f.credit.toNat

/-- The 256 bytes of a flit; `bad` inverts its CRC (R490). -/
def flitBytes (f : Flit) (bad : Bool) : List Byte :=
  let c := crc32 (flitBody f)
  flitBody f ++ leBytes 4 (if bad then (~~~c).toNat else c.toNat)

/-- The flit that 256 bytes hold, if their CRC matches. -/
def parseFlit (b : List Byte) : Option Flit :=
  if b.length ≠ 256 ∨ fieldAt b 252 4 ≠ (crc32 (b.take 252)).toNat then none
  else
    let h := fieldAt b 0 1
    some
      { typ := h % 16
        vc := h / 16 % 4
        cvc := h.testBit 6
        first := h.testBit 7
        seq := BitVec.ofNat 16 (fieldAt b 1 2)
        ack := BitVec.ofNat 16 (fieldAt b 3 2)
        entry := BitVec.ofNat 12 (fieldAt b 5 2)
        plen := fieldAt b 7 1
        payload := (b.drop 8).take 240
        credit := BitVec.ofNat 32 (fieldAt b 248 4) }

/-! ### Sequence numbers (R324) -/

/-- `a` comes before `b` modulo 2¹⁶. -/
def seqBefore (a b : BitVec 16) : Bool := a ≠ b && (b - a).toNat < 2 ^ 15

/-! ### Messages (R323) -/

/-- A message's bytes, padded to a multiple of 16. -/
def xmsgBytes (m : XMsg) : List Byte :=
  let b := [m.kind, BitVec.ofNat 8 m.m.val] ++ leBytes 2 m.tag.toNat ++ leBytes 6 m.addr.toNat ++ leBytes 2 m.len ++
    [m.status, m.inc, m.ctx, 0] ++ m.data
  padTo ((b.length + 15) / 16 * 16) b

/-- Data bytes that follow a message's header. -/
def xmsgData (b : List Byte) : Nat :=
  let k := fieldAt b 0 1
  if k = 0x01 then 0 else if k = 0x81 then (if fieldAt b 12 1 = 0 then fieldAt b 10 2 else 0) else fieldAt b 10 2

/-- Bytes of the message at the head of a stream, padding included. -/
def xmsgLen (b : List Byte) : Nat := 16 + (xmsgData b + 15) / 16 * 16

/-- The message at the head of a stream of bytes, once all of it has arrived. -/
def parseXmsg (b : List Byte) : Option XMsg :=
  if b.length < 16 ∨ b.length < xmsgLen b then none
  else
    some
      { kind := BitVec.ofNat 8 (fieldAt b 0 1)
        m := Fin.ofNat 8 (fieldAt b 1 1 % 8)
        tag := BitVec.ofNat 16 (fieldAt b 2 2)
        addr := BitVec.ofNat 48 (fieldAt b 4 6)
        len := fieldAt b 10 2
        status := BitVec.ofNat 8 (fieldAt b 12 1)
        inc := BitVec.ofNat 8 (fieldAt b 13 1)
        ctx := BitVec.ofNat 8 (fieldAt b 14 1)
        data := (b.drop 16).take (xmsgData b) }

/-! ### Messages to and from the host (R426, R431, R534) -/

/-- Codes of a completion's STATUS (R431). -/
def statusCode : Status → Nat
  | .ok => 0 | .access => 1 | .address => 2 | .state => 3 | .saveErr => 4 | .imageErr => 5 | .fenced => 6 | .format => 7
  | .poison => 8 | .stackDown => 9 | .hostSelect => 10

/-- The channel that a message to the host travels on. -/
def hostChan : HostMsg → ChanId
  | .cpl key _ _ _ _ _ => key.ch
  | .token ch _ _ _ _ _ _ _ _ _ => ch
  | .stepDone ch _ _ _ => ch
  | .notify ch _ _ _ _ => ch
  | .trace _ _ _ _ => 0

/-- KIND, TAG, STATUS, CONTEXT, ARG and data of a message to the host. -/
def hostParts : HostMsg → Nat × Nat × Nat × Nat × Nat × List Byte
  | .cpl key kind c st arg data => (0xC0, key.tag.toNat, statusCode st, c.val, kind.toNat * 2 ^ 56 + arg.toNat, data)
  | .token _ c step rec tensor row d k layer operator =>
    (0xC8, 0, 0, c.val, step.toNat,
      padTo 16 rec ++ leBytes 4 tensor.toNat ++ leBytes 4 row.toNat ++ [BitVec.ofNat 8 d.val, BitVec.ofNat 8 k.val] ++
        leBytes 2 layer.toNat ++ leBytes 2 operator.toNat ++ [0, 0])
  | .stepDone _ c step beat => (0xC9, 0, 0, c.val, step.toNat, leBytes 8 beat.toNat)
  | .notify _ source c arg data =>
    (0xCA, 0, 0, match c with | some c => c.val | none => 0x80, arg.toNat * 256 + source.toNat, data)
  | .trace d dropped idx data => (0xCB, 0, 0, 0, d.val + min dropped 255 * 256 + idx % 65536 * 65536, data)

/-- A message to the host as bytes, padded to a multiple of 16. -/
def hostBytes (q : Sent) : List Byte :=
  let (kind, tag, status, ctx, arg, data) := hostParts q.msg
  let flags := (if q.shadow then 4 else 0) + (if q.prior then 8 else 0) + 16 * (hostChan q.msg).val
  let b := [BitVec.ofNat 8 kind, BitVec.ofNat 8 flags] ++ leBytes 2 tag ++ leBytes 2 data.length ++
    [BitVec.ofNat 8 status, BitVec.ofNat 8 ctx] ++ leBytes 8 arg ++ data
  padTo ((b.length + 15) / 16 * 16) b

/-- The bytes at the head of a stream begin a message of the host: on the Pofold link all do, on an external port the kinds
of R427. -/
def isHostKind (pfl : Bool) (b : List Byte) : Bool := pfl || (0x40 ≤ fieldAt b 0 1 && fieldAt b 0 1 < 0x60)

/-- Bytes of the message at the head of a stream, on either kind of link. -/
def messageLen (pfl : Bool) (b : List Byte) : Nat :=
  if isHostKind pfl b then 16 + (fieldAt b 4 2 + 15) / 16 * 16 else xmsgLen b

end Sys2Proof.Machine
end

