-- ==== Sys2Proof/Machine/Mesh.lean ====
section
/-! DEFINITION. Slots on the mesh: departures, bursts, acknowledgements and replays of internal pairs, the ledger's grants,
plan switches and failed elements (R204 to R230, R347 to R349). -/
namespace Sys2Proof.Machine

/-! ### Pairs (R347, R349) -/

/-- The split entry of a pair: 0 for a one-to-one connection. -/
def splitOf (p : PlanEntry) (e : Nat) : BitVec 12 := if p.isSplit then BitVec.ofNat 12 e else 0

def sameTx (t : TxPair) (src : Fin 128) (split : BitVec 12) (dst : Fin 32) : Bool :=
  t.src = src && t.split = split && (split ≠ 0 || t.dst = dst)

def txPairOf (s : State) (src : Fin 128) (split : BitVec 12) (dst : Fin 32) : TxPair :=
  (s.mesh.txPairs.find? fun t => sameTx t src split dst).getD { src := src, split := split, dst := if split = 0 then dst else 0 }

def setTxPair (s : State) (t : TxPair) : State :=
  { s with mesh := { s.mesh with txPairs := s.mesh.txPairs.filter (fun x => !sameTx x t.src t.split t.dst) ++ [t] } }

/-- Flits stored by a source port: its replay store holds 64 (R349). -/
def storeSize (s : State) (src : Fin 128) : Nat :=
  (s.mesh.txPairs.filter fun t => t.src = src).foldl (fun n t => n + t.store.length) 0

/-- A replayed flit counts for its launch: the running figure's, or the context's and die's alone (R523, R524). -/
def countReplay (s : State) (o : Option Origin) : State :=
  match o with
  | none => s
  | some o => match (s.caller o.die o.caller).run with
    | some r => if r.ctx = o.ctx ∧ r.launch = o.launch then figCount s o.die o.caller o.ctx cntReplay 1
        else ctxCount (dieCount s o.die cntReplay 1) o.ctx o.die cntReplay 1
    | none => ctxCount (dieCount s o.die cntReplay 1) o.ctx o.die cntReplay 1

/-- Places of an external port's RSP pool come free as its PLAN flits reach their SRAM (R333, R367). -/
def freePlaces (s : State) (q n : Nat) : State :=
  if q < 96 ∨ 112 ≤ q then s
  else
    let k := s.link (q - 96)
    let c := SMap.get (fun _ => {}) k.chans 1
    s.setLink (q - 96) { k with chans := SMap.set (fun _ => {}) k.chans 1 { c with free := c.free + BitVec.ofNat 32 n } }

/-- A flit is discarded (R349): the running figure that formed it ends with the link-down error; one already acknowledged
leaves its context to hold at the first figure its Caller has not launched. -/
def discardFlit (s : State) (src : Fin 128) (f : PlanFlit) : State :=
  match f.origin with
  | none => s
  | some o =>
    let running := match (s.caller o.die o.caller).run with
      | some r => decide (r.ctx = o.ctx ∧ r.launch = o.launch)
      | none => false
    if running then linkDownHold s o.die o.caller o.ctx (src.val % 8)
    else (holdLater s o.die o.caller o.ctx 0).report (contained o.die.val 0x06 2 (src.val % 8) (src.val % 8))

/-- Event 0x07 kind 5, or 0x30 for an external port: a phase entry is relearned (R229, R349). -/
def relearnEvent (q : Nat) : FaultReport :=
  let (src, p) := portSource q
  corrected src (if q < 96 then 0x07 else 0x30) (p + 5 * 512)

/-- The flit that FLT_IINJ names goes out with its CRC inverted, once (R490). -/
def iinjHits (s : State) (q : Nat) (dst : Nat) (seq : BitVec 16) : Bool :=
  s.bit aFltIinj 31 && s.fld aFltIinj 30 24 = q && s.fld aFltIinj 23 20 = dst && s.fld aFltIinj 15 0 = seq.toNat

/-- A flit goes onto the mesh, to every destination of its entry. -/
def depart (s : State) (q : Fin 128) (split : BitVec 12) (dsts : List Nat) (seq : BitVec 16) (f : PlanFlit) : State :=
  dsts.foldl (fun s d =>
    let bad := iinjHits s q.val d seq
    let m : MeshFlit := { src := q, dst := Fin.ofNat 32 d, split := split, seq := seq, flit := f, bad := bad }
    let s₁ := { s with flight := s.flight ++ [m] }
    if bad then s₁.setBit aFltIinj 31 false else s₁) s

/-! ### Departures of a slot -/

/-- A pair's phase entries are relearned at once (R349): free values for the lanes of each receiving port. -/
def relearnNow (s : State) (q : Nat) (dsts : List Nat) : State :=
  dsts.foldl (fun s d => (List.range 18).foldl (fun s l =>
    let key := phaseKey (outputOf q d) l q
    { s with opt := { s.opt with
        phases := SMap.set (fun _ => 0) s.opt.phases key (s.free.toNat % 32 : Nat)
        stale := s.opt.stale.filter (· ≠ key) } }.tookFree) s) s

/-- Replays of a pair in its slot (R211, R349): the due flits in order, in one of any 8 consecutive slots of the pair (R122:
32 slots hold at most 4 replays of a flit); a flit due after 32 replays is discarded. Answers the numbers sent. -/
def sendReplays (s : State) (p : PlanEntry) (q : Fin 128) (split : BitVec 12) (dst : Fin 32) (cap : Nat) :
    State × List (BitVec 16) :=
  let t := txPairOf s q split dst
  let spent := t.store.filter fun f => f.due && decide (f.replays ≥ 32)
  let keep := t.store.filter fun f => !(f.due && decide (f.replays ≥ 32))
  let due := keep.filter fun f => f.due
  let now := if t.recent.any (· ≠ 0) then [] else due.take cap
  let sent (f : Stored) : Bool := now.any fun g => g.seq = f.seq
  let store := keep.map fun (f : Stored) => if sent f then { f with replays := f.replays + 1, due := false, age := 0, deferred := false }
    else if f.due then { f with deferred := true } else f
  let s₁ := setTxPair s { t with store := store, recent := now.length :: t.recent.take 6 }
  let s₂ := now.foldl (fun s (f : Stored) =>
    let s' := countReplay (depart s q split p.dsts f.seq f.flit) f.flit.origin
    if f.replays + 1 = 8 then (relearnNow s' q.val p.dsts).report (relearnEvent q.val) else s') s₁
  let s₃ := s₂.count aHubLedstat0 31 16 (due.filter fun f => !sent f && !f.deferred).length
  (freePlaces (spent.foldl (fun s (f : Stored) => discardFlit s q f.flit) s₃) q.val spent.length, now.map (·.seq))

/-- New flits of an entry at one of its inputs: numbered, stored and sent, as many as the slot, the store and the entry's
queue give. Answers the last number sent. -/
def sendNew (s : State) (p : PlanEntry) (e : Nat) (q : Fin 128) (split : BitVec 12) (dst : Fin 32) (room : Nat) :
    State × Option (BitVec 16) :=
  let admits (f : PlanFlit) : Bool := f.place.isSome && (q.val ≥ 96 || f.ports.getLsbD (q.val % 8))
  let out := ((s.txq e).takeWhile admits).take (min room (64 - storeSize s q))
  out.foldl (fun x f =>
    let s := x.1
    let t := txPairOf s q split dst
    let st : Stored := { seq := t.next, flit := { f with place := none }, waitFor := p.dsts.map (Fin.ofNat 32) }
    (depart (setTxPair s { t with next := t.next + 1, store := t.store ++ [st] }) q split p.dsts t.next f, some t.next))
    (s.setTxq e ((s.txq e).drop out.length), none)

/-- A replay of an entry's pair is due at input `q`. -/
def replayDue (s : State) (p : PlanEntry) (e q : Nat) : Bool :=
  match p.dsts with
  | [] => false
  | d :: _ => (txPairOf s (Fin.ofNat 128 q) (splitOf p e) (Fin.ofNat 32 d)).store.any (·.due)

/-- A flit of the mesh as bytes; internal flits carry neither ACK nor CREDIT (R321, R322, R347). -/
def meshBytes (m : MeshFlit) : List Byte :=
  flitBytes
    { typ := tPlan
      vc := 1
      cvc := false
      first := m.flit.first
      seq := m.seq
      ack := 0
      entry := m.flit.entry
      plen := m.flit.plen
      payload := m.flit.payload
      credit := 0 } m.bad

/-- An IDLE flit, which fills a place of a burst without a flit (R347). -/
def idleBytes (next : BitVec 16) : List Byte :=
  flitBytes
    { typ := tIdle
      vc := 0
      cvc := false
      first := false
      seq := next
      ack := 0
      entry := 0
      plen := 0
      payload := []
      credit := 0 } false

/-- A burst drives the lanes of its connection: coded, dealt and sent from the level at which the preamble ends (R250, R251, R317,
R318). -/
def driveBurst (s : State) (q : Nat) (lanes : List Nat) (mode : Nat) (bytes : List Byte) : State :=
  let shares := deal lanes.length (flitsEncode (fecCorrects false) bytes)
  { s with opt := { s.opt with
      drive := (lanes.zip shares).foldl (fun m x =>
        let cal := SMap.get (fun _ => {}) s.opt.lanes (calKey q x.1 mode)
        SMap.set (fun _ => []) m (18 * q + x.1)
          (driveLane mode cal.levels cal.pdc (Config.lockPatternEnd mode % modeLevels mode) (toLevels mode (symBits x.2)))) s.opt.drive } }

/-- The burst of an input in a slot: the flits that have just gone onto the mesh towards destination `d`, and IDLE flits. -/
def sendBurst (s : State) (row q : Nat) (p : PlanEntry) (d before : Nat) : State :=
  let outs := p.dsts.map (outputOf q)
  let (_, cap) := entryCapacity s row p q
  let flits := ((s.flight.drop before).filter fun m => m.dst.val = d).map meshBytes
  let next := (txPairOf s (Fin.ofNat 128 q) 0 (Fin.ofNat 32 d)).next
  driveBurst s q (connSet s q outs) (connMode s row q outs)
    (flits ++ List.replicate (cap - flits.length) (idleBytes next)).flatten

/-- The flits that the slot's owner of input `q` sends: to external ports as they are, to dies as a pair's flits. Flits for an
external port that is down or held for its grace period stay in the transmit buffer (R101, R341). -/
def sendInput (s : State) (row q : Nat) : State :=
  let e := rowOwner s (activeBank s) row q
  let p := planEntry s (activeBank s) e
  let (lanes, cap) := entryCapacity s row p q
  if e = 0 || !(p.kind = kindData || p.kind = kindPartial) || s.mesh.lost.contains (row, q) then s
  else if lanes < 8 then (if (s.txq e).isEmpty && !replayDue s p e q then s else reportOnce s (narrowEvent q 0))
  else match p.dsts with
    | [] => s
    | d :: _ =>
      if d ≥ 16 then
        if !lnkAlive s (d - 16) then s
        else
          let out := ((s.txq e).takeWhile fun f => f.place.isSome && (q ≥ 96 || f.ports.getLsbD (q % 8))).take cap
          let l := s.link (d - 16)
          let flits := out.map fun f => meshBytes { src := Fin.ofNat 128 q, dst := Fin.ofNat 32 d, split := 0, seq := 0, flit := f }
          let s₁ := driveBurst s q (connSet s q (p.dsts.map (outputOf q))) (connMode s row q (p.dsts.map (outputOf q)))
            (flits ++ List.replicate (cap - flits.length) (idleBytes 0)).flatten
          freePlaces ((s₁.setTxq e ((s.txq e).drop out.length)).setLink (d - 16)
            { l with planq := l.planq ++ out.map fun (f : PlanFlit) => { f with place := none } }) q out.length
      else
        let qf : Fin 128 := Fin.ofNat 128 q
        let split := splitOf p e
        let dst : Fin 32 := Fin.ofNat 32 d
        let (s₁, replayed) := sendReplays s p qf split dst cap
        let (s₂, last) := sendNew s₁ p e qf split dst (cap - replayed.length)
        let s₂ := sendBurst s₂ row q p d s.flight.length
        let t := txPairOf s₂ qf split dst
        let high := match last with | some n => some n | none => replayed.getLast?
        setTxPair s₂ { t with bursts := t.bursts ++ p.dsts.map fun d => { dst := Fin.ofNat 32 d, high := high } }

/-- Every slot without an acknowledgement ages the stored flits (R349). -/
def ageStores (s : State) : State :=
  { s with mesh := { s.mesh with txPairs := s.mesh.txPairs.map fun (t : TxPair) =>
      { t with
        store := t.store.map fun (f : Stored) => { f with age := f.age + 1 }
        bursts := t.bursts.map fun (b : SentBurst) => { b with age := b.age + 1 } } } }

/-! ### Plans (R219, R220) -/

def planBusy (s : State) : Bool := s.bit aHubPlanstat 31
def planReady (s : State) : Bool := s.bit aHubPlanstat 30
def planPending (s : State) : Bool := s.bit aHubPlanstat 29

/-- The check starts: READY and the last result clear, which the spec leaves open (DESIGN CHOICE, log entry 28). A check and a
re-routing both show BUSY. -/
def startPlanLoad (s : State) : State :=
  (((({ s with mesh := { s.mesh with checking := true } }).setBit aHubPlanstat 31 true).setBit aHubPlanstat 30 false).setFld
    aHubPlanstat 27 0 0)

/-- BUSY shows whether a check or a re-routing runs. -/
def settlePlanBusy (s : State) : State := s.setBit aHubPlanstat 31 (s.mesh.checking || s.mesh.rerouting ≠ [])

/-- PLAN_CHECK_DONE: READY, or the first failure. -/
def execPlanCheckDone (s : State) : Host.Outcome State Fault Refusal :=
  .next (if !s.mesh.checking then s
    else
      let read := s.hubScan hubPlan (planWordAddr (standbyBank s) 0) 0x400000
      let s₁ := settlePlanBusy { read with mesh := { s.mesh with checking := false } }
      match checkPlan s (standbyBank s) with
      | none => (s₁.setBit aHubPlanstat 30 true).setFld aHubPlanstat 27 0 0
      | some f => (s₁.setBit aHubPlanstat 30 false).setFld aHubPlanstat 27 0 (f.code * 2 ^ 24 + f.entry * 2 ^ 12 + f.row))

/-- A switch is requested in this slot. -/
def requestSwitch (s : State) : State :=
  ({ s with mesh := { s.mesh with switchSlot := BitVec.ofNat 64 (s.beat.toNat / 32) } }).setBit aHubPlanstat 29 true

/-- The entry's 32 bytes are the same in both banks. -/
def entrySame (s : State) (e : Nat) : Bool := planBytes s 0 (32 * e) 32 == planBytes s 1 (32 * e) 32

/-- The entry that a launched figure uses, 0 for none (R118). -/
def entryUsed (r : Running) : Nat :=
  match figOp r.fig with
  | 1 => if (matDesc r.desc).outMode = 1 then (matDesc r.desc).entry else 0
  | 2 => if (vecDesc r.desc).sends then (vecDesc r.desc).entry else 0
  | 3 | 4 => (xferDesc r.desc).entry
  | 5 => (sendDesc r.desc).entry
  | _ => 0

/-- A running figure whose entry has changed: one whose flits still wait for the entry's slots, or whose replays are due, needs
a slot and holds; another is marked, and holds when it next needs one (R220). -/
def switchRunning (s : State) (d : DieId) (k : CallerId) : State :=
  match (s.caller d k).run with
  | none => s
  | some r =>
    let e := entryUsed r
    let o := originOf d k r
    let waits := (s.txq e).any (fun f => f.origin = some o) ||
      s.mesh.txPairs.any fun t => t.store.any fun f => f.flit.origin = some o && f.due
    if e = 0 || entrySame s e then s
    else if waits then refuseFigure s d k r.ctx 4
    else setRun s d k { r with entryGone := true }

/-- A flit of a changed entry that needs a slot is discarded: its figure holds with FIGERR 4 if it still runs, and otherwise
the Caller that launched it holds at the first figure it has not yet launched (R220). -/
def entryLost (s : State) (o : Option Origin) : State :=
  match o with
  | none => s
  | some o => match (s.caller o.die o.caller).run with
    | some r =>
      if r.ctx = o.ctx ∧ r.launch = o.launch then refuseFigure s o.die o.caller o.ctx 4
      else (holdLater s o.die o.caller o.ctx 4).report (ctxEvent o.die o.caller o.ctx 0x03 4)
    | none => (holdLater s o.die o.caller o.ctx 4).report (ctxEvent o.die o.caller o.ctx 0x03 4)

/-- Launches of acknowledged figures whose flits or due replays a switch discards. -/
def switchOrphans (s : State) : List Origin :=
  let changed (f : PlanFlit) : Bool := !entrySame s f.entry.toNat
  let all := (s.mesh.tx.flatMap (·.2)) ++ s.mesh.txPairs.flatMap fun t => (t.store.filter (·.due)).map (·.flit)
  (all.filterMap fun f => if changed f then f.origin else none).eraseDups.filter fun o =>
    match (s.caller o.die o.caller).run with
    | some r => !(r.ctx = o.ctx && r.launch = o.launch)
    | none => true

/-- Stored flits of changed entries: one whose replay is due is discarded, another waits for its acknowledgement and takes no
further slot (R220). -/
def switchStore (s : State) (t : TxPair) : TxPair :=
  { t with store := (t.store.filter fun f => entrySame s f.flit.entry.toNat || !f.due).map fun (f : Stored) =>
      { f with gone := f.gone || !entrySame s f.flit.entry.toNat } }

/-- A row's connections, by input. -/
def rowInputs (s : State) (r : Nat) : List (Nat × List Conn) :=
  let cs := rowConns s (activeBank s) r
  ((cs.map (·.inp)).eraseDups).map fun q => (q, cs.filter fun c => c.inp = q)

/-- Connections of a row that cannot be placed: taken in ascending input, each kept only if it routes with those kept before;
the inputs left out, and the loops that the rest uses. -/
def placeRow (fails : List Nat) (row : List (Nat × List Conn)) : List Nat × List (Nat × Conn) :=
  let kept := row.foldl (fun (acc : List Conn × List Nat) x =>
    if (routes fails (acc.1 ++ x.2)).isSome then (acc.1 ++ x.2, acc.2) else (acc.1, acc.2 ++ [x.1])) ([], [])
  (kept.2, ((routes fails kept.1).map (·.2)).getD [])

/-- The active plan routed around the failed elements: rows with the inputs that lose them, and the loops with their
connections (R228). -/
def planRoutes (s : State) : List (Nat × Nat) × List (Nat × Conn) :=
  let fails := meshFails s
  if fails = [] then ([], [])
  else
    let rows := (List.range (planLen s (activeBank s))).map fun r =>
      let cs := rowConns s (activeBank s) r
      match (if cs = [] then some ([], []) else routes fails cs) with
      | some (_, hs) => (r, ([] : List Nat), hs)
      | none => let p := placeRow fails (rowInputs s r); (r, p.1, p.2)
    (rows.flatMap fun x => x.2.1.map fun q => (x.1, q), (rows.flatMap fun x => x.2.2).eraseDups)

/-- Source number of a looped path's phase entries (R229): the mesh input and 128. -/
def loopedSource (q : Nat) : Nat := 128 + q

/-- The hub measures the phase of each looped connection (R228): a free value by receiving lane. -/
def measureLoops (s : State) (hs : List (Nat × Conn)) : State :=
  hs.foldl (fun s x => (List.range 18).foldl (fun s l =>
    { s with opt := { s.opt with
        phases := SMap.set (fun _ => 0) s.opt.phases (phaseKey x.2.out l (loopedSource x.2.inp)) (s.free.toNat % 32 : Nat) } }.tookFree) s) s

/-- The routing of the active plan takes effect: the connections that have lost their row, the loops, and their phases (R228,
R241). -/
def applyRoutes (s : State) : State :=
  let r := planRoutes s
  let loops := (r.2.map (·.1)).eraseDups
  measureLoops ({ s with mesh := { s.mesh with lost := r.1, loops := loops } }.setFld aHubSpare 7 0 (loopBits loops)) r.2

/-- Grants that the new plan's rows leave no room for go back to the front of their queues (R214, R221). -/
def recheckGrants (s : State) : State :=
  s.mesh.grants.foldl (fun s g =>
    let s₁ := { s with mesh := { s.mesh with grants := s.mesh.grants.erase g } }
    if resourcesFree s₁ g.slot.toNat g.req && grantRoutes s₁ g.slot.toNat g.req then
      { s₁ with mesh := { s₁.mesh with grants := s₁.mesh.grants ++ [g] } }
    else
      { s₁ with mesh := { s₁.mesh with
          queue := { req := g.req, slot := g.slot - 2, use := g.use, left := if g.use = .other then none else some g.lines } ::
            s₁.mesh.queue } }) s

/-- PLAN_SWITCH: at the first slot with s mod 256 = 0 from w + 3 on. -/
def planSwitch (s : State) : State :=
  let orphans := switchOrphans s
  let s₁ := allCallers.foldl (fun s p => switchRunning s p.1 p.2) s
  let s₂ := orphans.foldl (fun s o => entryLost s (some o)) s₁
  let m : Mesh := s₂.mesh
  let m₁ : Mesh :=
    { m with
      tx := m.tx.filter fun e => entrySame s e.1
      txPairs := m.txPairs.map (switchStore s)
      cursors := m.cursors.filter fun c => entrySame s (c.1 % 4096) }
  let gone := m.tx.filter fun e => !entrySame s e.1
  let s₃ := gone.foldl (fun s e => (endpointInputs (planEntry s (activeBank s) e.1).src).foldl (fun s q => freePlaces s q e.2.length) s)
    { s₂ with mesh := m₁ }
  recheckGrants (applyRoutes
    (((s₃.setBit aHubPlanstat 28 (activeBank s = 0)).setBit aHubPlanstat 29 false).setBit aHubPlanstat 30 false))

/-- The present slot is the one in which a pending switch is taken (R220). -/
def switchDue (s : State) : Bool :=
  let σ := s.beat.toNat / 32
  planPending s && decide (s.beat.toNat % 32 = 0 ∧ σ % 256 = 0 ∧ s.mesh.switchSlot.toNat + 3 ≤ σ)

def execPlanSwitch (s : State) : Host.Outcome State Fault Refusal := .next (if switchDue s then planSwitch s else s)

/-! ### Failed elements (R228) -/

def execMeshElementFail (e : Fin 832) (s : State) : Host.Outcome State Fault Refusal :=
  .next (if s.bit (aHubMeshfail (e.val / 32)) (e.val % 32) then s
    else
      settlePlanBusy ({ s with mesh := { s.mesh with rerouting := s.mesh.rerouting ++ [e] } }.setBit
        (aHubMeshfail (e.val / 32)) (e.val % 32) true))

/-- MESH_REROUTE_DONE: every row routed again around the failed elements, and an event for each of them. -/
def meshReroute (s : State) : State :=
  let s₁ := applyRoutes (settlePlanBusy { s with mesh := { s.mesh with rerouting := [] } })
  s.mesh.rerouting.foldl (fun t e =>
    t.report (if s₁.mesh.lost = [] then corrected 25 0x28 e.val else contained 25 0x29 6 e.val e.val)) s₁

def execMeshRerouteDone (s : State) : Host.Outcome State Fault Refusal :=
  .next (if s.mesh.rerouting ≠ [] ∧ s.beat.toNat % 32 = 0 ∧ s.beat.toNat / 32 % 256 = 0 then meshReroute s else s)

/-! ### The slot (R98, R204, R211 to R214, R223, R241) -/

/-- SENDs that wait for places take those that the slot has freed (R98). -/
def pumpAll (s : State) : State := allCallers.foldl (fun s p => pumpSend s p.1 p.2) s

/-- SLOT_START: at the first beat of a slot a pending switch that is due is taken, the settings change, every owner of an input
sends, the stores age, electrical and dynamic grants admit their lines, the base-die links place what waits for them, and the
ledger decides for the slot after this one (requests of the slot before this one and earlier). -/
def slotStart (s₀ : State) : State :=
  let σ := s₀.beat.toNat / 32
  let sw := if switchDue s₀ then planSwitch s₀ else s₀
  let s := (sw.hubCheck hubLedger aLedgerWord).hubScan hubPlan
    (planWordAddr (activeBank sw) (0x20000 + 512 * slotRow sw σ)) 512
  let row := slotRow s σ
  let s₁ := setMesh { s with mesh := { s.mesh with grants := s.mesh.grants.filter fun g => σ ≤ g.slot.toNat } } σ
  let s₂ := ageStores s₁
  let s₃ := if planLen s₂ (activeBank s₂) = 0 then s₂ else (List.range 112).foldl (fun s q => sendInput s row q) s₂
  let s₄ := linkSlot (useGrants (rowLines s₃ σ) σ) σ
  decideSlot (pumpAll (placeAll s₄)) (σ + 1)

def execSlotStart (s : State) : Host.Outcome State Fault Refusal := .next (if s.beat.toNat % 32 = 0 then slotStart s else s)

/-! ### Receiving a burst (R122, R222, R229, R347, R348) -/

def sameRx (r : RxPair) (src : Fin 128) (split : BitVec 12) (d : DieId) : Bool := r.src = src && r.split = split && r.die = d

def rxPairOf (s : State) (src : Fin 128) (split : BitVec 12) (d : DieId) (p : Fin 8) : RxPair :=
  (s.mesh.rxPairs.find? fun r => sameRx r src split d).getD { src := src, split := split, die := d, port := p }

def setRxPair (s : State) (r : RxPair) : State :=
  { s with mesh := { s.mesh with rxPairs := s.mesh.rxPairs.filter (fun x => !sameRx x r.src r.split r.die) ++ [r] } }

def State.landingOf (s : State) (q : Nat) : List LandFlit := SMap.get (fun _ => []) s.mesh.landing q
def State.setLanding (s : State) (q : Nat) (l : List LandFlit) : State :=
  { s with mesh := { s.mesh with landing := SMap.set (fun _ => []) s.mesh.landing q l } }

def isPartial (s : State) (entry : BitVec 12) : Bool := (planEntry s (activeBank s) entry.toNat).kind = kindPartial

/-- A flit finds a place of the port's 32, once its die has left INIT (R89); a PARTIAL flit with no figure to take it finds one
of 16, which those held out of sequence take too (R122). -/
def hasPlace (s : State) (d : DieId) (p : Fin 8) (f : PlanFlit) : Bool :=
  let q := 8 * d.val + p.val
  let landed := s.landingOf q
  let held := (s.mesh.rxPairs.filter fun r => r.die = d && r.port = p).flatMap (·.held)
  sramServes s d && decide (landed.length + held.length < 32) &&
    (!isPartial s f.entry || (partialTaker s d (planEntry s (activeBank s) f.entry.toNat).ctx).isSome ||
      decide ((landed.filter (·.waiting)).length + (held.filter fun h => isPartial s h.2.entry).length < 16))

/-- Flits of a pair land in sequence order. -/
def landInOrder (d : DieId) (p : Fin 8) (src : Fin 128) (split : BitVec 12) : Nat → State → State
  | 0, s => s
  | n + 1, s =>
    let r := rxPairOf s src split d p
    match r.held.find? fun h => h.1 = r.next with
    | none => s
    | some (seq, f) =>
      let s₁ := setRxPair s { r with next := r.next + 1, held := r.held.filter fun h => h.1 ≠ seq }
      let q := 8 * d.val + p.val
      landInOrder d p src split n (s₁.setLanding q (s₁.landingOf q ++ [{ flit := f, seq := seq, waiting := isPartial s f.entry }]))

/-- One flit of a burst, as received: lost, empty, a duplicate, or landed. -/
def receiveFlit (s : State) (src : Fin 128) (d : DieId) (p : Fin 8) (x : RxFlit) : State :=
  match (if x.lost then none else parseFlit x.bytes) with
  | none => s
  | some f =>
    if f.typ ≠ tPlan then s
    else
      let split := splitOf (planEntry s (activeBank s) f.entry.toNat) f.entry.toNat
      let r := rxPairOf s src split d p
      let pf : PlanFlit := { entry := f.entry, first := f.first, payload := f.payload, plen := f.plen, origin := none }
      if seqBefore f.seq r.next || r.held.any (fun h => h.1 = f.seq) || !hasPlace s d p pf then s
      else landInOrder d p src split 33 (setRxPair s { r with held := r.held ++ [(f.seq, pf)] })

/-- The IACK of a pair (R348). -/
def sendIack (s : State) (src : Fin 128) (split : BitVec 12) (d : DieId) (p : Fin 8) : State :=
  let r := rxPairOf s src split d p
  let bitmap := (List.range 32).foldl (fun n i =>
    if r.held.any fun h => h.1 = r.next + BitVec.ofNat 16 i then n + 2 ^ i else n) 0
  s.send (.iack src split d (r.next - 1) (BitVec.ofNat 32 bitmap))

/-- Pairs that the slot's burst belongs to: that of the entry which owns the source, and those whose flits arrived. -/
def burstPairs (s : State) (src : Fin 128) (flits : List RxFlit) : List (BitVec 12) :=
  let ofEntry (e : Nat) : BitVec 12 := splitOf (planEntry s (activeBank s) e) e
  let own := slotOwner s (s.beat.toNat / 32) src.val
  let got := flits.filterMap fun x =>
    (if x.lost then none else parseFlit x.bytes).bind fun f => if f.typ = tPlan then some (ofEntry f.entry.toNat) else none
  ((if own = 0 then [] else [ofEntry own]) ++ got).eraseDups

/-- The pair's phase entry is to be refreshed first at the port's next turn (R229, R268). -/
def relearnMark (s : State) (q src : Nat) : State :=
  { s with opt := { s.opt with relearn := (s.opt.relearn ++ [(q, src)]).eraseDups } }

/-- The lanes, the mode and the flits of the connection that the present slot gives a receiving port from a source. -/
def burstShape (s : State) (src : Fin 128) (d : DieId) (p : Fin 8) : List Nat × Nat × Nat :=
  let slot := s.beat.toNat / 32
  let outs := (planEntry s (activeBank s) (slotOwner s slot src.val)).dsts.map (outputOf src.val)
  let rxs := if outs.contains (8 * d.val + p.val) then outs else [8 * d.val + p.val]
  let lanes := connSet s src rxs
  let mode := connMode s (slotRow s slot) src rxs
  (lanes, mode, slotFlits mode lanes.length)

/-- A burst is decoded, and its symbols attributed to the lanes of the receiver and of the source (R250, R291, R317 to R319). -/
def takeBurst (s : State) (src : Fin 128) (d : DieId) (p : Fin 8) (lanes : List (Fin 18 × List Nat)) : State × List RxFlit :=
  let (ls, mode, n) := burstShape s src d p
  let levels (l : Nat) : List Nat := ((lanes.find? fun x => x.1.val = l).map (·.2)).getD []
  let size := codedSyms (fecCorrects false) n
  let c := flitsDecode (fecCorrects false) n (gather (ls.map fun l => bitSyms (fromLevels mode (levels l))) size)
  (tallyLanes s [18 * (8 * d.val + p.val), sourceBase src] ls 0 size c.fixed fun l => excludedSyms mode (levels l), c.flits)

/-- BURST_RECEIVE: after the third lock failure in a row the pair's phase entry is to be relearned at its next turn. -/
def burstReceive (s₀ : State) (src : Fin 128) (d : DieId) (p : Fin 8) (lock : Bool) (lanes : List (Fin 18 × List Nat)) : State :=
  let (s, flits) := if lock then takeBurst s₀ src d p lanes else (s₀, [])
  let s₁ := { s with flight := s.flight.filter fun m => !(m.src = src && m.dst.val = d.val) }
  let r := rxPairOf s₁ src 0 d p
  let s₂ := if lock then setRxPair s₁ { r with lockFails := 0 }
    else
      let n := r.lockFails + 1
      let s' := (setRxPair s₁ { r with lockFails := if n = 3 then 0 else n }).count aHubLedstat1 15 0 1
      if n = 3 then (relearnMark s' (8 * d.val + p.val) src.val).report (relearnEvent (8 * d.val + p.val)) else s'
  let s₃ := flits.foldl (fun s x => receiveFlit s src d p x) s₂
  (burstPairs s src flits).foldl (fun s split => sendIack s src split d p) s₃

def execBurstReceive (src : Fin 128) (d : DieId) (p : Fin 8) (lock : Bool) (lanes : List (Fin 18 × List Nat)) (s : State) :
    Host.Outcome State Fault Refusal := .next (burstReceive s src d p lock lanes)

/-- The Caller to which a landing outside its area is charged: the lowest that runs the context on the die (R87, R222). -/
def landingFault (s : State) (d : DieId) (c : CtxId) : State :=
  match (List.finRange 4).find? fun k => runs s d k c with
  | some k => windowFault s d k c
  | none =>
    let s₁ := s.flag (aTdUnitstat d) 1
    (if ctxState s c = ctxRunning ∨ ctxState s c = ctxReady then notifyHeld (setCtxState s₁ c ctxHeld) d 0 c 8 else s₁).report
      (ctxEvent d 0 c 0x03 8)

def cursorKey (d : DieId) (e : Nat) : Nat := 4096 * d.val + e

/-- LANDING_WRITE (R99, R222): the oldest flit that does not wait for a figure. -/
def landingWrite (s : State) (d : DieId) (p : Fin 8) : State :=
  let q := 8 * d.val + p.val
  match (if sramServes s d then (s.landingOf q).find? fun f => !f.waiting else none) with
  | none => s
  | some f =>
    let e := planEntry s (activeBank s) f.flit.entry.toNat
    let s₁ := s.setLanding q ((s.landingOf q).erase f)
    let key := cursorKey d f.flit.entry.toNat
    let cur := if f.flit.first then some e.land else SMap.get (fun _ => none) s.mesh.cursors key
    match cur with
    | none => s₁
    | some a =>
      let ok := a + 240 ≤ e.land + e.landLen
      let s₂ := { s₁ with mesh := { s₁.mesh with
        cursors := SMap.set (fun _ => none) s₁.mesh.cursors key (some (if ok then a + 240 else a)) } }
      if ok then s₂.landWrite (sramPa d a) f.flit.payload else landingFault s₂ d (Fin.ofNat 64 e.ctx)

def execLandingWrite (d : DieId) (p : Fin 8) (s : State) : Host.Outcome State Fault Refusal := .next (landingWrite s d p)

/-! ### Acknowledgement and replay (R348, R349) -/

/-- The flit's number is covered by an IACK. -/
def iackCovers (ack : BitVec 16) (bitmap : BitVec 32) (seq : BitVec 16) : Bool :=
  seq = ack || seqBefore seq ack ||
    (let i := (seq - (ack + 1)).toNat
     decide (i < 32) && bitmap.getLsbD i)

/-- Stored flits of a pair become due; those of an entry that a plan switch has changed are discarded instead (R220). Answers
their launches. -/
def splitGone (fs : List Stored) : List Stored × List (Option Origin) :=
  (fs.filter fun f => !(f.gone && f.due), ((fs.filter fun f => f.gone && f.due).map fun f => f.flit.origin).eraseDups)

/-- IACK: flits that every destination has acknowledged leave the store; those up to the highest number of the burst that it
answers, the oldest without one, are due (log entry 19). -/
def execIack (src : Fin 128) (split : BitVec 12) (die : DieId) (ack : BitVec 16) (bitmap : BitVec 32) (s : State) :
    Host.Outcome State Fault Refusal :=
  let s₁ := s.take (.iack src split die ack bitmap)
  let dst : Fin 32 := Fin.ofNat 32 die.val
  match s₁.mesh.txPairs.find? fun t => sameTx t src split dst with
  | none => .next s₁
  | some t =>
    let burst := t.bursts.find? fun b => b.dst = dst
    let lost (n : BitVec 16) : Bool := match burst.bind (·.high) with | some h => n = h || seqBefore n h | none => false
    let marked := t.store.map fun (f : Stored) =>
      if iackCovers ack bitmap f.seq then { f with waitFor := f.waitFor.erase dst }
      else if lost f.seq then { f with due := true } else f
    let kept := splitGone (marked.filter fun f => f.waitFor ≠ [])
    .next (kept.2.foldl entryLost (freePlaces (setTxPair s₁
      { t with
        store := kept.1
        bursts := match burst with | some b => t.bursts.erase b | none => t.bursts })
      src.val (marked.filter fun f => f.waitFor = []).length))

/-- IACK_TIMEOUT: flits without an IACK for 8 slots are due. -/
def execIackTimeout (src : Fin 128) (split : BitVec 12) (die : DieId) (s : State) : Host.Outcome State Fault Refusal :=
  match s.mesh.txPairs.find? fun t => sameTx t src split (Fin.ofNat 32 die.val) with
  | none => .next s
  | some t =>
    let kept := splitGone (t.store.map fun (f : Stored) => if f.age ≥ 8 then { f with due := true } else f)
    .next (kept.2.foldl entryLost (setTxPair s { t with store := kept.1, bursts := t.bursts.filter fun b => b.age < 8 }))

end Sys2Proof.Machine
end

