-- ==== Sys2Proof/Machine/Rings.lean ====
section
/-! DEFINITION. Rings of the optical ports: usable sets, margin figures, locks, heat-class feed-forward, calibration turns,
margin tests, and the last-good table (R246 to R286). -/
namespace Sys2Proof.Machine

/-! ### Ports and lanes -/

/-- Lanes of a set. -/
def bits18 (w : BitVec 18) : Nat := ((List.range 18).filter fun l => w.getLsbD l).length

def State.port (s : State) (p : Nat) : PortCal := SMap.get (fun _ => {}) s.opt.ports p
def State.setPort (s : State) (p : Nat) (c : PortCal) : State :=
  { s with opt := { s.opt with ports := SMap.set (fun _ => {}) s.opt.ports p c } }

/-- Number of a ring. -/
def ringNo (p : Nat) (tx : Bool) (l : Nat) : Nat := 36 * p + (if tx then 0 else 18) + l
def State.ring (s : State) (n : Nat) : Ring := SMap.get (fun _ => {}) s.opt.rings n
def State.setRing (s : State) (n : Nat) (r : Ring) : State :=
  { s with opt := { s.opt with rings := SMap.set (fun _ => {}) s.opt.rings n r } }

/-- Internal ports that take module-wide turns (R266, R347). -/
def internalPorts : List Nat := List.range 96 ++ [112, 113, 114, 115]

def isXPort (p : Nat) : Bool := 96 ≤ p && p < 112

def portMode (s : State) (p : Nat) : Nat := s.fld (aRngState p) 11 10

/-- Roles of RNG_LANE (R285). -/
def roleUsable : Nat := 0
def roleCal : Nat := 1
def roleSuspect : Nat := 2
def roleDark : Nat := 3
def roleUnlocked : Nat := 4
def roleExcluded : Nat := 5

def laneRole (s : State) (p : Nat) (tx : Bool) (l : Nat) : Nat := if tx then s.fld (aRngLane p l) 31 29 else s.fld (aRngLane p l) 28 26
def setRole (s : State) (p : Nat) (tx : Bool) (l v : Nat) : State :=
  if tx then s.setFld (aRngLane p l) 31 29 v else s.setFld (aRngLane p l) 28 26 v
def setRoles (s : State) (p l v : Nat) : State := setRole (setRole s p true l v) p false l v

def lockAddr (p : Nat) (tx : Bool) : Nat := if tx then aRngLock p else aRngRxlock p
def useAddr (p : Nat) (tx : Bool) : Nat := if tx then aRngUse p else aRngRxuse p

/-- Data lanes of a port: the smaller of its usable sets, at most 16 (R248). -/
def dataLanes (s : State) (p : Nat) : Nat := min 16 (min (laneCount (s.rd (aRngUse p))) (laneCount (s.rd (aRngRxuse p))))

/-- Usable lanes of a port: the smaller of its usable sets (R262, R266). -/
def usableLanes (s : State) (p : Nat) : Nat := min (laneCount (s.rd (aRngUse p))) (laneCount (s.rd (aRngRxuse p)))

/-- The count of R248 and the state that follows from it: below 8 the port is down. -/
def settlePort (s : State) (p : Nat) : State :=
  let n := dataLanes s p
  let s₁ := s.setFld (aRngState p) 20 16 n
  if rngState s p = rngUp ∧ n < 8 then setRngState s₁ p rngDown
  else if rngState s p = rngDown ∧ n ≥ 8 then setRngState s₁ p rngUp
  else s₁

/-- A link-control message of one position with three bytes of a lane map, as ANNOUNCE and ACCEPT carry it (R336). -/
def mapMsg (kind : Byte) (map : BitVec 18) (gen : Bool) (s : BitVec 16) : List Byte :=
  padTo 16 ([kind, 1, 0, 0] ++ leBytes 3 map.toNat ++ [if gen then 1 else 0] ++ leBytes 2 s.toNat)

/-- Lanes of the set in ascending order, at most 16 of them (R248). -/
def lowest16 (w : BitVec 18) : BitVec 18 :=
  ((((List.range 18).filter fun l => w.getLsbD l).take 16).foldl (fun n l => n ||| BitVec.ofNat 18 (2 ^ l)) 0)

def txMap (s : State) (x : Nat) : BitVec 18 := BitVec.ofNat 18 (s.fld (aLnkWidth x) 17 0)
def txGen (s : State) (x : Nat) : Bool := s.bit (aLnkWidth x) 18
def rxMap (s : State) (x : Nat) : BitVec 18 := BitVec.ofNat 18 (s.fld (aLnkRxmap x) 17 0)
def rxGen (s : State) (x : Nat) : Bool := s.bit (aLnkRxmap x) 18

/-- A queued change comes into its set: this end's usable set, or what the partner's receiver can use (R337). -/
def putChange (s : State) (x : Nat) (c : LaneChange) : State :=
  let b : BitVec 18 := BitVec.ofNat 18 (2 ^ c.lane.val)
  let k := s.link x
  if c.own then settlePort (s.setBit (aRngUse (96 + x)) c.lane.val c.enter) (96 + x)
  else s.setLink x { k with farRx := if c.enter then k.farRx ||| b else k.farRx &&& ~~~b }

/-- The transmit map as the two ends' sets give it (R248). -/
def commonMap (s : State) (x : Nat) : BitVec 18 :=
  lowest16 ((s.rd (aRngUse (96 + x))).truncate 18 &&& (s.link x).farRx)

/-- The next queued change is announced, once none is outstanding (R337). -/
def pumpChanges (s : State) (x : Nat) : State :=
  let k := s.link x
  match k.changes with
  | [] => s
  | c :: rest =>
    if k.change.isSome || lnkState s x ≠ lnkUp then s
    else
      let map := commonMap (putChange s x c) x
      let gen := !txGen s x
      lctlSend (s.setLink x
        { k with
          changes := rest
          change := some { map := map, gen := gen, s := k.next, accepted := false, why := some c } }) x
        (mapMsg 0x02 map gen k.next) true

/-- LANE_REQ: kind 0x04, lane, take out or return (R336). -/
def laneReqMsg (l : Nat) (ret : Bool) : List Byte := padTo 16 [0x04, 1, BitVec.ofNat 8 l, if ret then 1 else 0]

/-- An external port's change goes in-band: announced for its transmit direction, asked for by LANE_REQ for the other (R337). -/
def tellLane (s : State) (x : Nat) (tx : Bool) (l : Nat) (enter : Bool) : State :=
  let k := s.link x
  if tx then pumpChanges (s.setLink x { k with changes := k.changes ++ [{ lane := Fin.ofNat 18 l, enter := enter, own := true }] }) x
  else lctlSend (s.setLink x
    { k with
      rxAsk := k.rxAsk ++ [(Fin.ofNat 18 l, enter)]
      askedAt := SMap.set (fun _ => 0) k.askedAt l s.ns }) x (laneReqMsg l enter) true

/-- What a usable set will hold of a lane once the changes under way have been made. -/
def willUse (s : State) (p : Nat) (tx : Bool) (l : Nat) : Bool :=
  let k := s.link (p - 96)
  let waiting : List Bool :=
    if !isXPort p then (s.opt.atGuard.filter fun e => e.1.val = p && e.2.1 = tx && e.2.2.1.val = l).map (·.2.2.2)
    else if !lnkAlive s (p - 96) then []
    else if tx then
      ((k.change.bind (·.why)).toList ++ k.changes).filterMap fun c => if c.own && c.lane.val = l then some c.enter else none
    else k.rxAsk.filterMap fun c => if c.1.val = l then some c.2 else none
  waiting.getLast?.getD (s.bit (useAddr p tx) l)

/-- A beat in which the elements of the mesh change (R204). -/
def inGuard (s : State) : Bool := s.beat.toNat % 32 < 4

/-- A lane enters or leaves a usable set at its port's next change point (R247): at once for a port that carries nothing or
within a slot guard, at the next guard for an internal port, in-band for an external one. -/
def setUse (s : State) (p : Nat) (tx : Bool) (l : Nat) (enter : Bool) : State :=
  if willUse s p tx l = enter then s
  else if isXPort p && lnkAlive s (p - 96) then tellLane s (p - 96) tx l enter
  else if isXPort p || inGuard s || rngState s p ≠ rngUp then settlePort (s.setBit (useAddr p tx) l enter) p
  else { s with opt := { s.opt with atGuard := s.opt.atGuard ++ [(Fin.ofNat 132 p, tx, Fin.ofNat 18 l, enter)] } }

/-- The changes that waited for a slot guard are made (R247). -/
def guardChanges (s : State) : State :=
  s.opt.atGuard.foldl (fun s e => settlePort (s.setBit (useAddr e.1.val e.2.1) e.2.2.1.val e.2.2.2) e.1.val)
    { s with opt := { s.opt with atGuard := [] } }

/-- The bank that lights a transmitting port (R19). -/
def bankOf (p : Nat) : Nat := if p < 96 then p / 16 else if p < 112 then 6 else 7

/-- A line of the port's bank is between its cut-out and its cut-in: its lane carries no data on any fed port (R294, R296). -/
def lineCut (s : State) (p l : Nat) : Bool :=
  let b : Bank := SMap.get (fun _ => {}) s.light.banks (bankOf p)
  (match b.ho with | some h => h.line.val = l | none => false) || SMap.get (fun _ => []) b.early l ≠ []

/-- The lane belongs in its set: ring locked, calibrated, lit, not suspect, not excluded, its line not in a handover, and no
accepted value still to take effect (R247, R268, R276, R296). -/
def belongs (s : State) (p : Nat) (tx : Bool) (l : Nat) : Bool :=
  s.bit (lockAddr p tx) l && laneRole s p tx l = roleUsable && !(tx && lineCut s p l) &&
    !(s.port p).values.any fun v => v.1.lane.val = l

/-- USABLE_SET_CHANGE: at a slot guard for an internal port, in-band for an external one; a lane calibrated in a module-wide
turn rejoins at a guard with s mod 256 = 0 (R266). -/
def execUsableSetChange (p : PortId) (tx : Bool) (l : LaneId) (enter : Bool) (s : State) : Host.Outcome State Fault Refusal :=
  let q := s.port p
  let wait := enter && !isXPort p && q.rejoin.getLsbD l && s.beat.toNat / 32 % 256 ≠ 0
  .next (if (!isXPort p && !inGuard s) || belongs s p tx l ≠ enter || wait then s
    else if enter then setUse (s.setPort p { q with rejoin := q.rejoin &&& ~~~(BitVec.ofNat 18 (2 ^ l.val)) }) p tx l true
    else setUse s p tx l false)

/-- A lane event: code 0x07 of the die, 0x30 of EXT, for guest, link and reference ports 0x07 of GUEST and MESH (R476, R477).
Kinds: 0 lock loss, 1 hop, 2 suspect, 3 turn skipped, 4 feed-forward suspended, 5 phase relearn, 6 handover check, 7 LOST. -/
def portOwner (p : Nat) : Nat × Nat := if p < 116 then portSource p else (25, p % 16)

def laneEvent (p l kind : Nat) : FaultReport :=
  let (src, q) := portOwner p
  corrected src (if isXPort p then 0x30 else 0x07) (q + l * 16 + kind * 512)

/-- A port is narrowed: uncorrected-contained with the capacity subtype (R474, R476). -/
def capacityEvent (p l : Nat) : FaultReport :=
  let (src, q) := portOwner p
  contained src (if isXPort p then 0x32 else 0x08) 3 (q + l * 256) 0

/-- A lane is lost to a port in the directions named: corrected while 16 lanes remain without it (R262, R270, R298). -/
def reportLane (s : State) (p l kind : Nat) (tx rx : Bool) : State :=
  let left (d out : Bool) : Nat := laneCount (s.rd (useAddr p d)) - (if out && s.bit (useAddr p d) l then 1 else 0)
  s.report (if min (left true tx) (left false rx) ≥ 16 then laneEvent p l kind else capacityEvent p l)

/-! ### Margin figure (R254) -/

/-- E for an opening `v` in a mode. -/
def eyeFigure (mode v : Nat) : Nat := min 255 (64 * v / (match mode with | 0 => 6 | 1 => 4 | _ => 3))

/-- F for a count of corrected symbols. -/
def countFigure (c : Nat) : Nat := if c = 0 then 255 else 255 - 16 * bitLength c

/-- C and the symbols of the last 100 ms for a receiving lane: counted from what the lanes of tensor dies and external ports have
brought, and as the receive controller reports them for the other ports, whose symbols no command brings. -/
def laneCounts (s : State) (p l corr syms : Nat) : Nat × Nat :=
  if p < 112 then
    let c := SMap.get (fun _ => {}) s.opt.fec (18 * p + l)
    (c.errs.length, c.recent s.ns)
  else (corr, syms)

/-- MF_UPDATE: with fewer than 2²⁰ symbols in the last 100 ms F keeps its value. -/
def execMfUpdate (p : PortId) (l : LaneId) (eye corr syms : Nat) (s : State) : Host.Outcome State Fault Refusal :=
  let q := s.port p
  let (corr, syms) := laneCounts s p l corr syms
  let f := if syms < 2 ^ 20 then SMap.get (fun _ => 255) q.f l.val else countFigure corr
  let s₁ := s.setPort p { q with f := SMap.set (fun _ => 255) q.f l.val f }
  .next (s₁.setFld (aRngLane p l) 7 0 (min (eyeFigure (portMode s p) eye) f))

/-! ### Locks (R255 to R262) -/

/-- round(n / d) of R258 and R263: the nearest integer. Which of the two a quotient halfway between them gives, the spec does
not say (log entry 21). -/
def roundDiv (n : Int) (d : Nat) : Int :=
  let q := n.fdiv d
  let r := 2 * (n - q * d)
  if r < d then q else if r > d then q + 1 else if Config.halfwayUp n d then q + 1 else q

/-- Heater code of a ring (R263). -/
def heaterOf (r : Ring) : Nat := (min (max ((r.lock : Int) + roundDiv r.ff 256) 0) 4095).toNat

def heatCode (s : State) (p : Nat) (tx : Bool) (l : Nat) : Nat := if tx then s.fld (aRngHeat p l) 27 16 else s.fld (aRngHeat p l) 11 0
def setHeater (s : State) (p : Nat) (tx : Bool) (l v : Nat) : State :=
  if tx then s.setFld (aRngHeat p l) 27 16 v else s.setFld (aRngHeat p l) 11 0 v

/-- A wrong cue (R264): within 4τ the lock code has moved against the change of target by more than half of it. -/
def wrongCue (tau : Nat) (r : Ring) : Bool :=
  let d := ((r.lock : Int) - r.lockAt) * 256
  !r.miss && r.moved ≠ 0 && decide (r.held ≤ 4 * tau) &&
    (if r.moved > 0 then decide (2 * (-d) > r.moved) else decide (2 * d > -r.moved))

/-- A miss is counted; the fourth within 1 s suspends feed-forward on the port (R264). -/
def countMiss (s : State) (p : Nat) : State :=
  let q := s.port p
  let recent := (q.misses.filter fun b => s.ns < b.toNat + 1000000000) ++ [s.stampNs]
  let s₁ := (s.count (aRngFfcfg p) 27 16 1).setPort p { q with misses := recent }
  if recent.length ≥ 4 && !s.bit (aRngFfcfg p) 31 then
    ((s₁.setPort p { q with misses := [] }).setBit (aRngFfcfg p) 31 true).report (laneEvent p 0 4)
  else s₁

/-- A seeded search about a lock code finds the ring within 73 codes of it; a ring that falls back alone to the full sweep is
placed between 400 and 3,675 (R256 to R258). -/
def searchFinds (last code : Nat) : Bool := (last ≤ code + 73 && code ≤ last + 73) || (400 ≤ code && code ≤ 3675)

/-- An internal receive ring updates its lock in data windows of slots in which its port receives (R261). -/
def mayLock (s : State) (p : Nat) (tx : Bool) : Bool :=
  tx || !(p < 96 || (112 ≤ p && p < 116)) || rngState s p ≠ rngUp ||
    (decide (6 ≤ s.beat.toNat % 32) && (slotRoutes s (s.beat.toNat / 32)).2.any fun c => c.out = p)

/-- A ring's lane awaits acceptance under R269, unless a turn on the lane or a measurement under way covers it. -/
def awaitAccept (s : State) (p : Nat) (tx : Bool) (l : LaneId) : State :=
  let q := s.port p
  let turn := match q.turn with | some t => t.lane = l && (if tx then t.tx else t.rx) | none => false
  if turn || q.accept.any (fun t => t.lane = l && (if tx then t.tx else t.rx)) then s
  else s.setPort p { q with accept := q.accept ++ [{ lane := l, tx := tx, rx := !tx }] }

/-- All rings of a port that can lock have done so: its search is over, and its margin test begins with the partner given, the
attenuating element of an external port at 3 dB (R277, R278). -/
def searchOver (s : State) (p : Nat) : Bool :=
  (List.range 18).all fun l => (s.bit (aRngLock p) l || laneRole s p true l = roleDark) && s.bit (aRngRxlock p) l

/-- The attenuating element of an external port (R277, R303, R305). -/
def setAtten (s : State) (p v : Nat) : State :=
  if isXPort p then { s with light := { s.light with atten := SMap.set (fun _ => 0) s.light.atten (p - 96) v } } else s

/-- A port goes from its ring search to its margin test. A tensor-die or guest port takes its partner for it, and a reference
position in use as one reads TEST (R278, R281). -/
def beginMargin (s : State) (p : Nat) : State :=
  let s₁ := setAtten (setRngState s p rngMargin) p 2
  if !(p < 96 || (112 ≤ p && p < 116)) then s₁
  else
    let r := testPartner s p
    let s₂ := s₁.setPort p { s₁.port p with partner := r.map (Fin.ofNat 132) }
    match r with
    | some h => if 120 ≤ h && h < 128 then setRngState s₂ h rngTest else s₂
    | none => s₂

/-- The dither lock settles on a ring that was not locked: found in a search, or found again after a lost lock, in which case the
lane awaits acceptance (R258, R262, R278). -/
def settleLock (s : State) (p : Nat) (tx : Bool) (l : LaneId) : State :=
  let s₁ := s.setBit (lockAddr p tx) l true
  if s.bit (lockAddr p tx) l then s₁
  else if rngState s p = rngSearch then
    (if searchOver s₁ p && bootState s = bootReady then beginMargin s₁ p else s₁)
  else if laneRole s p tx l = roleUnlocked then awaitAccept s₁ p tx l
  else s₁

/-- LOCK_UPDATE: the loop's new code; a ring whose error has stayed within 10 pm for 50 µs is locked. A ring that is not locked
is being searched for, and found only where a search finds it. -/
def lockUpdate (s : State) (p : Nat) (tx : Bool) (l : LaneId) (code : Nat) (settled : Bool) : State :=
  let n := ringNo p tx l
  let found := s.bit (lockAddr p tx) l || searchFinds (s.ring n).lock code ||
    (rngState s p = rngSearch && decide (32 ≤ code ∧ code ≤ 4063))
  if !mayLock s p tx || !found then s
  else
    let r : Ring := { s.ring n with lock := code }
    let miss := wrongCue (s.port p).tau r
    let s₁ := s.setRing n { r with miss := r.miss || miss }
    let s₂ := if miss then countMiss s₁ p else s₁
    let s₃ := if p < 96 then s₂ else setHeater s₂ p tx l (heaterOf r)
    if settled then settleLock s₃ p tx l else s₃

def execLockUpdate (p : PortId) (tx : Bool) (l : LaneId) (code : BitVec 12) (settled : Bool) (s : State) :
    Host.Outcome State Fault Refusal := .next (lockUpdate s p tx l code.toNat settled)

/-- The turn's end time, once no port of the turn is left (R266). -/
def turnOver (s : State) (p : Nat) : State :=
  if isXPort p then { s with opt := { s.opt with xended := SMap.set (fun _ => 0) s.opt.xended (p - 96) s.stampNs } }
  else if internalPorts.any fun q => (s.port q).turn.isSome then s
  else { s with opt := { s.opt with ended := s.stampNs } }

/-- A turn ends on a port. -/
def endTurn (s : State) (p : Nat) : State :=
  turnOver ((s.setPort p { s.port p with turn := none }).setBit (aRngCalstat p) 31 false) p

/-- A lane's role in the directions of a measurement; a transmit lane without light stays DARK (R298). -/
def setJobRole (s : State) (p : Nat) (t : CalTurn) (v : Nat) : State :=
  let l := t.lane.val
  let s₁ := if t.tx && laneRole s p true l ≠ roleDark then setRole s p true l v else s
  if t.rx then setRole s₁ p false l v else s₁

/-- A turn is abandoned: the lane is usable again with its previous values at the next change point (R32, R271). -/
def abandonTurn (s : State) (p : Nat) : State :=
  match (s.port p).turn with
  | none => s
  | some t =>
    let v := if s.bit (aRngSuspect p) t.lane.val then roleSuspect else if (s.port p).await.getLsbD t.lane.val then roleCal else roleUsable
    endTurn (setJobRole s p t v) p

/-- A lane whose lock is lost (R262, R314): out of service until it is found again; a turn on another lane of the port is
abandoned where fewer than 17 usable lanes remain (R271). -/
def loseLock (s : State) (p : Nat) (tx : Bool) (l : Nat) : State :=
  if !s.bit (lockAddr p tx) l then s
  else
    let n := ringNo p tx l
    let s₁ := (s.setBit (lockAddr p tx) l false).setRing n { s.ring n with lost := true }
    let s₂ := if laneRole s₁ p tx l = roleUsable then setRole s₁ p tx l roleUnlocked else s₁
    let s₃ := reportLane s₂ p l 0 tx (!tx)
    let left := usableLanes s p - (if s.bit (useAddr p tx) l then 1 else 0)
    match (s.port p).turn with
    | some t => if t.lane.val ≠ l && left < 17 then abandonTurn s₃ p else s₃
    | none => s₃

/-- LOCK_LOSS: on an external port the change of the set starts here (R337). -/
def execLockLoss (p : PortId) (tx : Bool) (l : LaneId) (s : State) : Host.Outcome State Fault Refusal := .next (loseLock s p tx l)

/-- The code that a hop moves a ring to: one FSR up from the low end, or down from the high end (R256). -/
def hopCode (lock : Nat) : Nat := if lock < 32 then lock + 3275 else lock - 3275

/-- A ring hops one FSR and is found about the code it moved to (R256): its lane leaves its set and awaits acceptance. In a turn
on the lane the hop takes the place of the search, and the turn continues (R271). -/
def ringHop (s : State) (p : Nat) (tx : Bool) (l : LaneId) (found : Nat) : State :=
  let n := ringNo p tx l
  let lock := (s.ring n).lock
  if (32 ≤ lock ∧ lock ≤ 4063) ∨ !searchFinds (hopCode lock) found then s
  else
    let s₁ := s.setRing n { s.ring n with lock := found }
    let s₂ := (setHeater s₁ p tx l (heaterOf (s₁.ring n))).report (laneEvent p l 1)
    let turn := match (s.port p).turn with | some t => t.lane = l | none => false
    if turn || laneRole s p tx l ≠ roleUsable then s₂
    else setUse (awaitAccept (setRole s₂ p tx l roleUnlocked) p tx l) p tx l false

/-- RING_HOP: a lock code outside 32 to 4,063. -/
def execRingHop (p : PortId) (tx : Bool) (l : LaneId) (found : BitVec 12) (s : State) : Host.Outcome State Fault Refusal :=
  .next (ringHop s p tx l found.toNat)

/-! ### Feed-forward (R263 to R265) -/

def knows (r : Ring) (c : Fin 8) : Bool := (r.known[c.val]?).getD false
def coeffOf (r : Ring) (c : Fin 8) : Int := (r.coeff[c.val]?).getD 0

/-- The rings of a port: direction and lane. -/
def portRings : List (Bool × Nat) := (List.range 18).map (fun l => (true, l)) ++ (List.range 18).map fun l => (false, l)

/-- A ring at a class change. -/
def ringClass (on locked : Bool) (tau : Nat) (heater : Int) (c : Fin 8) (r : Ring) : Ring :=
  let tgt := if on && knows r c && knows r r.cls then 256 * coeffOf r c else r.tgt
  { r with
    before := if 5 * tau ≤ r.held then some heater else none
    prev := r.cls
    cls := c
    held := 0
    miss := false
    lost := !locked
    obs := none
    moved := tgt - r.tgt
    lockAt := (r.lock : Int)
    tgt := tgt }

/-- A port's rings at a class change; a measurement in progress is void (R269), and TAU takes effect (R284). -/
def portClass (c : Fin 8) (s : State) (p : Nat) : State :=
  let q := s.port p
  let on := s.bit (aRngCtl p) 1 && !s.bit (aRngFfcfg p) 31
  let s₁ := portRings.foldl (fun s x =>
    let n := ringNo p x.1 x.2
    s.setRing n (ringClass on (s.bit (lockAddr p x.1) x.2) q.tau (heatCode s p x.1 x.2) c (s.ring n))) s
  let void (t : CalTurn) : CalTurn := { t with void := true }
  s₁.setPort p { q with tau := s.fld (aRngFfcfg p) 10 0, turn := q.turn.map void, accept := q.accept.map void }

/-- CLASS_CHANGE: the cue of a die reaches the controllers of its eight ports. -/
def execClassChange (d : DieId) (cls : Fin 8) (s : State) : Host.Outcome State Fault Refusal :=
  .next ((List.range 8).foldl (fun s i => portClass cls s (8 * d.val + i)) (s.take (.heat d cls)))

/-- One microsecond of a ring: its offset moves, and after 5τ of a class that taught nothing wrong its whole shift is
observed. -/
def ringTick (susp : Bool) (tau : Nat) (heater : Int) (r : Ring) : Ring :=
  let held := r.held + 1
  { r with
    ff := r.ff + (r.tgt - r.ff).tdiv (tau : Int)
    held := held
    obs := if held = 5 * tau && !r.miss && !r.lost && !susp then r.before.map fun b => heater - b else r.obs }

/-- FF_TICK: of a tensor-die port. -/
def ffTick (s : State) (p : Nat) : State :=
  if 96 ≤ p then s
  else
    let tau := (s.port p).tau
    let susp := s.bit (aRngFfcfg p) 31
    portRings.foldl (fun s x =>
      let n := ringNo p x.1 x.2
      let r := ringTick susp tau (heatCode s p x.1 x.2) (s.ring n)
      setHeater (s.setRing n r) p x.1 x.2 (heaterOf r)) s

def execFfTick (p : PortId) (s : State) : Host.Outcome State Fault Refusal := .next (ffTick s p)

def clampCoeff (x : Int) : Int := min (max x (-1024)) 256

def setCoeff (r : Ring) (c : Fin 8) (v : Int) : Ring := { r with coeff := r.coeff.set c.val (clampCoeff v) }

/-- What a ring learns from an observed shift. -/
def ringLearn (r : Ring) (obs : Int) : Ring :=
  if knows r r.cls && knows r r.prev then
    let d := obs - (coeffOf r r.cls - coeffOf r r.prev)
    if r.cls ≠ 0 then setCoeff r r.cls (coeffOf r r.cls + d.tdiv 2) else setCoeff r r.prev (coeffOf r r.prev - d.tdiv 2)
  else if knows r r.prev then
    { setCoeff r r.cls (coeffOf r r.prev + obs) with known := r.known.set r.cls.val true }
  else if knows r r.cls then
    { setCoeff r r.prev (coeffOf r r.cls - obs) with known := r.known.set r.prev.val true }
  else r

/-- FF_LEARN: once for a class change whose shift was observed. -/
def execFfLearn (p : PortId) (tx : Bool) (l : LaneId) (s : State) : Host.Outcome State Fault Refusal :=
  let n := ringNo p tx l
  match (s.ring n).obs with
  | none => .next s
  | some o => .next (s.setRing n { ringLearn (s.ring n) o with obs := none, before := none })

/-- FF_SUSPEND_END. -/
def execFfSuspendEnd (p : PortId) (s : State) : Host.Outcome State Fault Refusal := .next (s.setBit (aRngFfcfg p) 31 false)

/-! ### Calibration turns (R266 to R271) -/

/-- The bank of a port hands over a line. -/
def handingOver (s : State) (p : Nat) : Bool := s.fld (aLbState (bankOf p)) 4 0 ≠ 0x1F

/-- A turn begins on a lane (R266, R267): it leaves the sets of the turn's directions and is measured; a port with no spare
lane skips its turn (R32, R271). -/
def beginTurn (t : CalTurn) (s : State) (p : Nat) : State :=
  let l := t.lane.val
  if rngState s p ≠ rngUp || (s.port p).excluded.getLsbD l then s
  else if usableLanes s p ≤ 16 then s.report (laneEvent p l 3)
  else
    let q := s.port p
    let s₁ := (s.setPort p { q with turn := some t, accept := q.accept.filter fun a => a.lane ≠ t.lane }).setFld (aRngCalstat p) 31 24 (128 + l)
    let s₂ := setJobRole s₁ p t roleCal
    let s₃ := if t.tx then setUse s₂ p true l false else s₂
    if t.rx then setUse s₃ p false l false else s₃

/-- A module-wide turn on an internal port: both rings, but not a transmit ring without light. -/
def startTurn (l : LaneId) (s : State) (p : Nat) : State :=
  beginTurn { lane := l, tx := laneRole s p true l ≠ roleDark } s p

/-- An external port's own turn: its transmit ring (R267). -/
def startXTurn (l : LaneId) (s : State) (p : Nat) : State :=
  if laneRole s p true l = roleDark then s else beginTurn { lane := l, rx := false } s p

def calDue (s : State) (ended : BitVec 64) : Bool :=
  s.bit aHubCalctl 31 && decide (ended.toNat + s.fld aHubCalctl 13 0 * 1000000 ≤ s.ns)

/-- CAL_TURN_START: INTERVAL after the last turn ended; module-wide turns start at a guard with s mod 256 = 0. A handover on
a port's bank makes its turn wait (R32). -/
def calTurnStart (s : State) (x : Option XPort) : State :=
  match x with
  | none =>
    if !calDue s s.opt.ended || decide (4 ≤ s.beat.toNat % 32 ∨ s.beat.toNat / 32 % 256 ≠ 0) ||
        internalPorts.any (fun p => (s.port p).turn.isSome || handingOver s p) then s
    else
      let s₁ := internalPorts.foldl (startTurn (Fin.ofNat 18 s.opt.next)) s
      turnOver { s₁ with opt := { s₁.opt with next := (s₁.opt.next + 1) % 18 } } 0
  | some x =>
    let p := 96 + x.val
    if !calDue s (SMap.get (fun _ => 0) s.opt.xended x.val) || (s.port p).turn.isSome || handingOver s p then s
    else
      let l := SMap.get (fun _ => 0) s.opt.xnext x.val
      let s₁ := startXTurn (Fin.ofNat 18 l) s p
      let s₂ := { s₁ with opt := { s₁.opt with xnext := SMap.set (fun _ => 0) s₁.opt.xnext x.val ((l + 1) % 18) } }
      if (s₂.port p).turn.isSome then s₂ else turnOver s₂ p

def execCalTurnStart (x : Option XPort) (s : State) : Host.Outcome State Fault Refusal := .next (calTurnStart s x)

def natNear (a b n : Nat) : Bool := a ≤ b + n && b ≤ a + n

/-- A repeat agrees with the measurement before it (R269). -/
def measAgree (a b : CalMeas) : Bool :=
  let near (t : Bool) (x y : Int) : Bool := !t || decide ((x - y).natAbs ≤ 8)
  near b.tx a.txPm b.txPm && near b.rx a.rxPm b.rxPm && a.levels.length = b.levels.length &&
    (a.levels.zip b.levels).all (fun x => natNear x.1 x.2 1) && natNear a.pdc b.pdc 1 && a.phases.length = b.phases.length &&
    b.phases.all fun x => match a.phases.find? fun y => y.1 = x.1 with
      | some y => decide ((x.2 - y.2).natAbs ≤ 1)
      | none => false


/-- Sources that can connect to an internal port. -/
def phaseSources : List Nat := List.range 116

/-- Accepted values take effect: the codes of the rings measured, the transmitter's level table and PDC, and the receiver's
equaliser and phase entries, of which those of other sources are stale (R253, R268). -/
def applyMeas (s : State) (p : Nat) (t : CalTurn) (m : CalMeas) : State :=
  let l := t.lane.val
  let mode := portMode s p
  let code (s : State) (tx : Bool) (v : Nat) : State :=
    let n := ringNo p tx l
    let r : Ring := { s.ring n with lock := v }
    setHeater (s.setRing n r) p tx l (heaterOf r)
  let s₁ := if t.tx then code s true m.txCode else s
  let s₂ := if t.rx then code s₁ false m.rxCode else s₁
  let o := s₂.opt
  let keys := m.phases.map fun x => phaseKey p l x.1
  let others := if isXPort p then [] else (phaseSources.map (phaseKey p l)).filter fun k => !keys.contains k
  let o₁ : Rings := if t.tx then
      { o with lanes := SMap.set (fun _ => {}) o.lanes (calKey p l mode) { levels := m.levels, pdc := m.pdc } }
    else o
  let o₂ : Rings := if t.rx then
      { o₁ with
        phases := m.phases.foldl (fun q x => SMap.set (fun _ => 0) q (phaseKey p l x.1) x.2) o₁.phases
        eq := m.taps.foldl (fun q x => SMap.set (fun _ => []) q (3 * phaseKey p l x.1 + mode) x.2) o₁.eq
        stale := (o₁.stale.filter fun k => !keys.contains k && !others.contains k) ++ others
        relearn := o₁.relearn.filter fun r => !(r.1 = p && m.phases.any fun x => x.1 = r.2) }
    else o₁
  { s₂ with opt := o₂ }

/-- The accepted values of a port whose change point has come take effect (R268). -/
def portValues (s : State) (p : Nat) : State :=
  let q := s.port p
  q.values.foldl (fun s v => applyMeas s p v.1 v.2) (s.setPort p { q with values := [] })

/-- Accepted values of internal ports take effect at a slot guard; those of an external port at its next frame boundary. -/
def applyValues (s : State) : State :=
  (s.opt.ports.map (·.1)).foldl (fun s p => if isXPort p then s else portValues s p) s

/-- The measurement of a lane goes on, or is over, as a port's turn or beside one. -/
def setJob (s : State) (p : Nat) (turn : Bool) (t : CalTurn) (goal : Option CalTurn) : State :=
  let q := s.port p
  if turn then (match goal with | some u => s.setPort p { q with turn := some u } | none => endTurn s p)
  else s.setPort p { q with accept := q.accept.filterMap fun a => if a.lane = t.lane ∧ a.tx = t.tx ∧ a.rx = t.rx then goal else some a }

/-- A lane is accepted: a suspect lane after two turns in a row (R270). Its values take effect, and it rejoins its sets, at the
next change points (R266, R268). -/
def acceptLane (s : State) (p : Nat) (turn : Bool) (t : CalTurn) (m : CalMeas) : State :=
  let l := t.lane.val
  let b : BitVec 18 := BitVec.ofNat 18 (2 ^ l)
  let keep := s.bit (aRngSuspect p) l && !(s.port p).once.getLsbD l
  let s₁ := setJob (if turn then s.count (aRngCalstat p) 15 0 1 else s) p turn t none
  let q := s₁.port p
  let s₂ := s₁.setPort p
    { q with
      values := q.values ++ [(t, m)]
      once := if keep then q.once ||| b else q.once &&& ~~~b
      await := q.await &&& ~~~b
      rejoin := if turn && !isXPort p then q.rejoin ||| b else q.rejoin &&& ~~~b }
  let s₃ := if t.tx then s₂.setBit (aRngLock p) l true else s₂
  let s₄ := if t.rx then s₃.setBit (aRngRxlock p) l true else s₃
  setJobRole (if keep then s₄ else s₄.setBit (aRngSuspect p) l false) p t (if keep then roleSuspect else roleUsable)

/-- A lane not accepted after three further measurements is suspect (R270). -/
def suspectLane (s : State) (p : Nat) (turn : Bool) (t : CalTurn) : State :=
  let l := t.lane.val
  let b : BitVec 18 := BitVec.ofNat 18 (2 ^ l)
  let s₁ := setJob s p turn t none
  let s₂ := s₁.setPort p { s₁.port p with once := (s₁.port p).once &&& ~~~b, await := (s₁.port p).await &&& ~~~b }
  reportLane (setJobRole (s₂.flag (aRngSuspect p) l) p t roleSuspect) p l 2 t.tx t.rx

/-- One measurement: a void one does not count, the first is kept, a repeat is compared with the one before it (R269). -/
def judge (s : State) (p : Nat) (turn : Bool) (t : CalTurn) (m : CalMeas) : State :=
  if t.void then setJob s p turn t (some { t with void := false })
  else match t.prev with
    | none => setJob s p turn t (some { t with prev := some m })
    | some a =>
      if measAgree a m then acceptLane s p turn t m
      else if t.again ≥ 3 then suspectLane s p turn t
      else (setJob s p turn t (some { t with prev := some m, again := t.again + 1 })).count (aRngCalstat p) 23 16 1

/-- CALDATA: lane, mode, and mean and spread of up to six levels (R336). -/
def caldataMsg (l mode : Nat) (eyes : List (BitVec 16 × BitVec 16)) : List Byte :=
  padTo 32 ([0x0A, 2, BitVec.ofNat 8 l, BitVec.ofNat 8 mode] ++
    (eyes.take 6).flatMap fun e => leBytes 2 e.1.toNat ++ leBytes 2 e.2.toNat)

/-- A receive lane of an external port, out of the receive map, is measured for its partner's turn, and the eye measurements go
back (R267). -/
def partnerTurn (s : State) (p : Nat) (m : CalMeas) : State :=
  let x := p - 96
  let l := m.lane
  if !lnkAlive s x || s.bit (aLnkRxmap x) l then s
  else
    let q := s.port p
    let t : CalTurn := { lane := l, tx := false }
    let known := q.accept.any fun a => a.lane = l && !a.tx && a.rx
    let s₁ := if known then s else setJobRole (s.setPort p { q with accept := q.accept ++ [t] }) p t roleCal
    let job := ((s₁.port p).accept.find? fun a => a.lane = l && !a.tx && a.rx).getD t
    lctlSend (judge s₁ p false job m) x (caldataMsg l (portMode s p) m.eyes) false

/-- CAL_MEASUREMENT_DONE: of the port's turn, of a lane that awaits acceptance, or of a receive lane for the partner's turn. -/
def calMeasured (s : State) (p : Nat) (m : CalMeas) : State :=
  let q := s.port p
  let mine (t : CalTurn) : Bool := t.lane = m.lane && t.tx = m.tx && t.rx = m.rx
  match q.turn.filter mine with
  | some t => judge s p true t m
  | none =>
    if isXPort p && m.rx && !m.tx && !q.accept.any (fun t => mine t && laneRole s p false m.lane = roleUnlocked) then partnerTurn s p m
    else match q.accept.find? mine with
      | some t => judge s p false t m
      | none => s

def execCalMeasurementDone (p : PortId) (m : CalMeas) (s : State) : Host.Outcome State Fault Refusal :=
  .next (calMeasured s p m)

/-- A write of 1s to RNG_SUSPECT clears the marks; the lanes wait for their next turn (R270). -/
def clearSuspect (s : State) (p : Nat) (v : Word) : State :=
  (List.range 18).foldl (fun s l =>
    if v.getLsbD l && s.bit (aRngSuspect p) l then
      let q := s.port p
      let b : BitVec 18 := BitVec.ofNat 18 (2 ^ l)
      setRoles ((s.setBit (aRngSuspect p) l false).setPort p { q with await := q.await ||| b, once := q.once &&& ~~~b }) p l roleCal
    else s) s

end Sys2Proof.Machine
end

