-- ==== Sys2Proof/Machine/Search.lean ====
section
/-! DEFINITION. Ring searches and margin tests of the optical ports, and the last-good table (R256 to R260, R273 to R281). -/
namespace Sys2Proof.Machine

/-! ### The last-good table (R259, R260, R279) -/

/-- The reference sensor of a port: one of its base die's 12 sensors, fixed for each port, or a hub sensor (R258, R497); which
of them, the spec leaves open (log entry 22). -/
def refSensor (p : Nat) : Nat :=
  let i := Config.refSensorOf p
  if p < 96 then 192 + 12 * (p / 24) + i % 12 else if 116 ≤ p ∧ p < 120 then 192 + 12 * (p - 116) + i % 12 else 240 + i % 8

/-- A sensor's reading in 1/16 °C, signed (R521). -/
def sensorReading (s : State) (i : Nat) : Int := ((s.rd (aTpSens i)).truncate 16 : BitVec 16).toInt

/-- The values held now. -/
def lgtNow (s : State) : LgtData where
  rings := s.opt.rings.map fun e => (e.1, (e.2.lock, e.2.coeff, e.2.known))
  temps := (List.range 132).map fun p => (p, sensorReading s (refSensor p))
  lanes := s.opt.lanes
  sets := (List.range 132).map fun p => (p, (s.rd (aRngUse p), s.rd (aRngRxuse p), s.rd (aRngSuspect p), portMode s p))
  phases := s.opt.phases
  trims := s.opt.trims

def lgtActiveB (s : State) : Bool := s.bit aHubLgt 25

/-- The copy in use, where it is valid. -/
def lgtCopy (s : State) : Option LgtCopy := if lgtActiveB s then s.eeprom.lgtB else s.eeprom.lgtA

/-! ### Ring searches (R256 to R258, R277, R278) -/

/-- The copy of the last-good table that start-up uses: the valid one with the higher GEN, and whether it is B (R259). -/
def bestLgt (e : Eeprom) : Option (LgtCopy × Bool) :=
  match e.lgtA, e.lgtB with
  | some a, some b => if a.gen.toNat < b.gen.toNat then some (b, true) else some (a, false)
  | some a, none => some (a, false)
  | none, some b => some (b, true)
  | none, none => none

/-- The code at which a search finds a ring: within 73 codes of the centre, or one of R256's range after a full sweep; which,
within those limits, the light decides (R256 to R258, log entry 2). -/
def foundCode (v : Nat) (centre : Option Int) : Nat :=
  let full := 400 + v / 4096 % 3276
  match centre with
  | none => full
  | some c => if 32 ≤ c - 73 ∧ c + 73 ≤ 4063 ∧ v % 2 = 0 then (c - 73 + (v / 4096 % 147 : Nat)).toNat else full

/-- The centre of a seeded search by the last-good table (R258): none where the table does not hold the ring. -/
def tableCentre (s : State) (t : LgtData) (p n : Nat) : Option Int :=
  (t.rings.find? fun e => e.1 = n).map fun e =>
    (e.2.1 : Int) - roundDiv (500 * (sensorReading s (refSensor p) - SMap.get (fun _ => 0) t.temps p)) 684

/-- The centre of a search of one port's ring in service: by the copy in use, or the last lock code (R278). An external port's
receive ring that the table does not hold is found by a full sweep (R277). -/
def searchCentre (s : State) (p n : Nat) : Option Int :=
  match (lgtCopy s).bind fun c => tableCentre s c.data p n with
  | some c => some c
  | none => if isXPort p then none else some ((s.ring n).lock : Int)

/-- A port's ring search begins: the rings to be found are not locked. On an external port those are its receive rings (R277). -/
def beginSearch (s : State) (p : Nat) : State :=
  let s₁ := setRngState s p rngSearch
  (if isXPort p then s₁ else s₁.wr (aRngLock p) 0).wr (aRngRxlock p) 0

/-- Every ring that a search has still to find is at the code that it finds (R258). -/
def endSearch (s : State) (p : Nat) : State :=
  portRings.foldl (fun s x =>
    if s.bit (lockAddr p x.1) x.2 || (x.1 && laneRole s p true x.2 = roleDark) then s
    else
      let n := ringNo p x.1 x.2
      let r : Ring := { s.ring n with lock := foundCode s.free.toNat (searchCentre s p n) }
      ((setHeater (s.setRing n r) p x.1 x.2 (heaterOf r)).setBit (lockAddr p x.1) x.2 true).tookFree) s

/-! ### Margin tests (R274 to R278) -/

/-- A port may be brought up again: it is down, or its die is not in service (R281). -/
def retestAllowed (s : State) (p : Nat) : Bool := rngState s p = rngDown || (p < 96 && s.fld (aTdState (p / 8)) 2 0 ≠ 2)

/-- Rate of a mode with `n` passing lanes in Gb/s; 0 below 8 lanes (R249, R276). -/
def modeRate (mode n : Nat) : Nat := if n < 8 then 0 else min 16 n * (match mode with | 0 => 56 | 1 => 112 | _ => 140)

/-- PAM6 may be tested on a port (R252). -/
def pam6Allowed (s : State) (p : Nat) : Bool := p < 96 && s.bit (aRngCtl p) 0

/-- PAM6 may be selected (R252). -/
def pam6Ok (s : State) (p : Nat) (w : BitVec 18) : Bool := pam6Allowed s p && bits18 w ≥ 16

/-- What a margin test has tested: modes from the highest allowed downwards, none after the first at which 16 or more lanes pass
(R274). -/
def testedModes (s : State) (p : Nat) (nrz pam4 pam6 : Option (BitVec 18)) : Option (BitVec 18) × Option (BitVec 18) × Option (BitVec 18) :=
  let enough (o : Option (BitVec 18)) : Bool := match o with | some w => decide (16 ≤ bits18 w) | none => false
  let t6 := if pam6Allowed s p then pam6 else none
  let t4 := if enough t6 then none else pam4
  (if enough t6 || enough t4 then none else nrz, t4, t6)

/-- The mode of the highest rate, the lower on a tie; none below 8 lanes (R276). -/
def selectMode (s : State) (p : Nat) (nrz pam4 pam6 : BitVec 18) : Option (Nat × BitVec 18) :=
  let r0 := modeRate 0 (bits18 nrz)
  let r1 := modeRate 1 (bits18 pam4)
  let r2 := if pam6Ok s p pam6 then modeRate 2 (bits18 pam6) else 0
  if r0 = 0 ∧ r1 = 0 ∧ r2 = 0 then none
  else if r1 ≤ r0 ∧ r2 ≤ r0 then some (0, nrz)
  else if r2 ≤ r1 then some (1, pam4)
  else some (2, pam6)

/-- A lane has light: its line is not LOST, as LB_LINE.STATE shows it now (R298, R300). -/
def litRole (s : State) (p l : Nat) : Bool := s.fld (aLbLine (bankOf p) l) 31 29 ≠ 3

/-- A port comes up in a mode with its passing lanes that are neither suspect nor without light, the rest excluded (R276). Turns
and measurements of before are over. -/
def portUp (s : State) (p mode : Nat) (pass : BitVec 18) : State :=
  let s₀ := abandonTurn s p
  let q := s₀.port p
  let s₁ := s₀.setPort p
    { q with
      excluded := ~~~pass
      accept := []
      values := []
      rejoin := 0
      partner := none }
  let role (s : State) (l : Nat) (dark : Bool) : Nat :=
    if dark then roleDark else if !pass.getLsbD l then roleExcluded else if s.bit (aRngSuspect p) l then roleSuspect else roleUsable
  let s₂ := (List.range 18).foldl (fun s l => setRole (setRole s p true l (role s l (!litRole s p l))) p false l (role s l false))
    (s₁.setFld (aRngState p) 11 10 mode)
  let set (tx : Bool) : Word := BitVec.ofNat 32
    (((List.range 18).filter fun l => laneRole s₂ p tx l = roleUsable && !(tx && lineCut s₂ p l)).foldl (fun n l => n + 2 ^ l) 0)
  settlePort (setRngState ((s₂.wr (aRngUse p) (set true)).wr (aRngRxuse p) (set false)) p rngUp) p

/-- A die left out at start enters service once all eight of its ports are up (R38, R278, R443). -/
def portsUp (s : State) (d : Nat) : Bool := (List.range 8).all fun i => rngState s (8 * d + i) = rngUp

/-- A port down: a turn on it is over (R32). -/
def portDown (s : State) (p : Nat) : State :=
  let s₁ := abandonTurn s p
  let s₂ := s₁.setPort p { s₁.port p with partner := none }
  settlePort (setRngState ((s₂.wr (aRngUse p) 0).wr (aRngRxuse p) 0) p rngDown) p

/-- A die whose ports are all up enters service, if its domain is on and it was left out for its ports. -/
def dieEnters (s : State) (d : Nat) : State :=
  if portsUp s d && s.leftOut.getLsbD d && s.fld (aTdState d) 2 0 = 4 then
    { (s.setFld (aTdState d) 2 0 2).setBit aHubInv d true with leftOut := s.leftOut &&& ~~~(BitVec.ofNat 12 (2 ^ d)) }
  else s

/-- PB_UP of a base die that is powered and whose port has passed its test (R36, R38). -/
def baseEnters (s : State) (k : Nat) : State := if domOn s (12 + k) && rngState s (116 + k) = rngUp then s.setBit aHubInv (12 + k) true else s

/-- The margin tests of a start run (phase 7 of R442). -/
def startTests (s : State) : Bool := s.boot.phase = 7

/-- Reference positions that have passed their own tests, and whether any has still to be tested (R275). -/
def refsPassed (s : State) : List Nat := ((List.range 8).map (120 + ·)).filter fun h => rngState s h = rngTest
def refsPending (s : State) : Bool := (List.range 8).any fun h => rngState s (120 + h) = rngMargin

/-- Ports in test without a partner. -/
def untested (s : State) : List Nat := testedPorts.filter fun p => rngState s p = rngMargin && (s.port p).partner.isNone

/-- Pairs of ports of one number on two dies, in ascending order of die (R275). -/
def pairUp (ps : List Nat) : List (Nat × Nat) :=
  (List.range 8).flatMap fun i =>
    let xs := ps.filter fun p => p < 96 && p % 8 = i
    (List.range (xs.length / 2)).map fun j => ((xs[2 * j]?).getD 0, (xs[2 * j + 1]?).getD 0)

def setPartner (s : State) (p q : Nat) : State := s.setPort p { s.port p with partner := some (Fin.ofNat 132 q) }

/-- The tests of a start take their partners (R275): each free reference position that has passed its own test a port; with
fewer than two of them, pairs of ports. -/
def nextRound (s : State) : State :=
  if !startTests s || refsPending s then s
  else if 2 ≤ (refsPassed s).length then
    let free := (refsPassed s).filter fun h => !testedPorts.any fun p => partnerOf s p = some h
    ((untested s).zip free).foldl (fun s x => setPartner s x.1 x.2) s
  else (pairUp (untested s)).foldl (fun s x => setPartner (setPartner s x.1 x.2) x.2 x.1) s

/-- A failed test of a pair counts against both of its ports (R275). -/
def failPair (s : State) (p : Nat) (partner : Option (Fin 132)) : State :=
  match partner with
  | some q => if startTests s && p < 96 && q.val < 96 then portDown s q.val else s
  | none => s

/-- What follows the end of a port's test. At a start: a reference position that has passed its own serves as one, a base-die
link's hub end is tested once the other end's loop mode has ended, and the next ports take their partners (R273, R275); in
service: a reference that no test uses any more is no longer in use. -/
def afterTest (s : State) (p : Nat) : State :=
  if startTests s then
    let up := rngState s p = rngUp
    nextRound (if 120 ≤ p && p < 128 then (if up then setRngState s p rngTest else s)
      else if 116 ≤ p && p < 120 then (if rngState s (12 + p) = rngSearch then setRngState s (12 + p) rngMargin else s)
      else s)
  else
    let idle := ((List.range 8).map (120 + ·)).filter fun h =>
      rngState s h = rngTest && !testedPorts.any fun q => partnerOf s q = some h
    idle.foldl (fun s h => setRngState s h rngUp) s

/-- A port's margin test can end: it is searched, tested, or a base-die link end in loop mode; an external one is lit (R305). -/
def inTest (s : State) (p : Nat) : Bool :=
  (!isXPort p || s.fld (aEyeState (p - 96)) 2 0 = 3) && (rngState s p = rngSearch || rngState s p = rngMargin || (116 ≤ p && p < 120 && rngState s p = rngTest))

/-- MARGIN_TEST_DONE: what the search has still to find is found, the counts are recorded; an internal port selects its mode and
lanes, an external one keeps the results for its negotiation (R274 to R277). -/
def marginDone (s : State) (p : Nat) (nrz pam4 pam6 : Option (BitVec 18)) : State :=
  if !inTest s p then s
  else
    let n (o : Option (BitVec 18)) : Nat := match o with | some w => bits18 w | none => 0
    let (t0, t4, t6) := testedModes s p nrz pam4 pam6
    let partner := (s.port p).partner
    let s₁ := (setAtten (endSearch s p) p 1).wr (aRngMargin p) (BitVec.ofNat 32 (n t6 * 2 ^ 24 + n t4 * 2 ^ 16 + n t0 * 2 ^ 8))
    let s₂ := s₁.setPort p { s₁.port p with nrz := t0.getD 0, pam4 := t4.getD 0 }
    match selectMode s₂ p (t0.getD 0) (t4.getD 0) (t6.getD 0) with
    | none => afterTest (failPair (portDown s₂ p) p partner) p
    | some (mode, pass) =>
      let s₃ := afterTest (portUp s₂ p mode pass) p
      if p < 96 then dieEnters s₃ (p / 8) else if 116 ≤ p && p < 120 then baseEnters s₃ (p - 116) else s₃

/-! ### Writes of the last-good table (R260) -/

/-- A write starts in the copy not in use, which is not valid meanwhile. -/
def startLgt (s : State) : State :=
  let toB := (lgtCopy s).isSome && !lgtActiveB s
  let target := if (lgtCopy s).isSome then toB else lgtActiveB s
  let e : Eeprom := if target then { s.eeprom with lgtB := none } else { s.eeprom with lgtA := none }
  ({ s with eeprom := e, opt := { s.opt with writing := some (target, lgtNow s) } }.setBit aHubLgt 30 true).setBit aHubLgt
    (if target then 26 else 27) false

def lgtBusy (s : State) : Bool := s.bit aHubLgt 30

/-- A value differs by more than the tolerance of R269: a code by more than 8 pm at 6.84 pm each, a level or PDC by more than
one, a phase by more than 1/32 UI, anything else at all. -/
def lgtChanged (a b : LgtData) : Bool :=
  let ringNear (x y : Nat × List Int × List Bool) : Bool := natNear x.1 y.1 1 && decide (x.2 = y.2)
  let laneNear (x y : LaneCal) : Bool :=
    x.levels.length = y.levels.length && (x.levels.zip y.levels).all (fun v => natNear v.1 v.2 1) && natNear x.pdc y.pdc 1
  !(decide ((a.rings.map (·.1)) = b.rings.map (·.1)) && (a.rings.zip b.rings).all (fun v => ringNear v.1.2 v.2.2) &&
    decide ((a.lanes.map (·.1)) = b.lanes.map (·.1)) && (a.lanes.zip b.lanes).all (fun v => laneNear v.1.2 v.2.2) &&
    decide ((a.phases.map (·.1)) = b.phases.map (·.1)) && (a.phases.zip b.phases).all (fun v => decide ((v.1.2 - v.2.2).natAbs ≤ 1)) &&
    decide (a.sets = b.sets) && decide (a.trims = b.trims))

/-- LGT_PERIODIC: after 60 minutes of service, if a value has changed. -/
def execLgtPeriodic (s : State) : Host.Outcome State Fault Refusal :=
  .next (if lgtBusy s then s
    else match lgtCopy s with
      | none => startLgt s
      | some c => if lgtChanged c.data (lgtNow s) then startLgt s else s)

/-- LGT_WRITE_DONE: the target becomes the copy in use. -/
def execLgtWriteDone (s : State) : Host.Outcome State Fault Refusal :=
  match s.opt.writing with
  | none => .next s
  | some (b, data) =>
    let gen : BitVec 24 := BitVec.ofNat 24 (s.fld aHubLgt 23 0) + 1
    let c : LgtCopy := { gen := gen, data := data }
    let e : Eeprom := if b then { s.eeprom with lgtB := some c } else { s.eeprom with lgtA := some c }
    let s₁ := { s with eeprom := e, opt := { s.opt with writing := none } }
    .next ((((s₁.setBit aHubLgt 30 false).setBit aHubLgt (if b then 26 else 27) true).setBit aHubLgt 25 b).setFld aHubLgt 23 0 gen.toNat)

end Sys2Proof.Machine
end

