-- ==== Sys2Proof/Machine/Stream.lean ====
section
/-! DEFINITION. What a link's lanes carry: the streams of frames of an external port in both directions, and the symbols of the
Pofold link (R251, R312 to R319, R338, R340, R344, R409 to R412). Link 16 is the Pofold link. -/
namespace Sys2Proof.Machine

/-! ### What a link is -/

def pfl : Nat := 16
def isPfl (l : Nat) : Bool := l = pfl

/-- Codes of HLK_STATE.STATE (R416). -/
def hlkState (s : State) : Nat := s.fld aHlkState 2 0
def hlkDetect : Nat := 1
def hlkTrain : Nat := 2
def hlkUp : Nat := 3
def hlkRetrain : Nat := 4
def hlkDown : Nat := 5

/-- Sequenced flits flow. -/
def linkUp (s : State) (l : Nat) : Bool := if isPfl l then hlkState s = hlkUp else lnkState s l = lnkUp

/-- Link-control flits flow (R340, R344). -/
def linkTalks (s : State) (l : Nat) : Bool :=
  linkUp s l || (!isPfl l && (lnkState s l = lnkTrain || lnkState s l = lnkRetrain))

def XLink.chan (k : XLink) (c : Nat) : Chan := SMap.get (fun _ => {}) k.chans c
def XLink.setChan (k : XLink) (c : Nat) (v : Chan) : XLink := { k with chans := SMap.set (fun _ => {}) k.chans c v }

/-- The flit's header fields as a link's transmitter begins it now (R322, R326, R333, R420). -/
def beginFlit (k : XLink) (l typ vc : Nat) (first : Bool) (seq : BitVec 16) (entry : BitVec 12) (plen : Nat) (payload : List Byte) :
    Flit :=
  let c := k.turn % (if isPfl l then 4 else 2)
  { typ := typ
    vc := vc
    cvc := c % 2 = 1
    first := if isPfl l then decide (2 ≤ c) else first
    seq := seq
    ack := k.exp - 1
    entry := entry
    plen := plen
    payload := payload
    credit := (k.chan c).free }

def State.phy (s : State) (l : Nat) : LinkPhy := (s.link l).phy
def State.setPhy (s : State) (l : Nat) (p : LinkPhy) : State := s.setLink l { s.link l with phy := p }

/-- The FEC strength of a link's streams: that of the selection while flits flow, STD on the training map (R316, R344, R345). -/
def strongFec (s : State) (x : Nat) : Bool := lnkState s x = lnkUp && s.bit (aLnkWidth x) 19

/-- The link's frames are those of the training map: every lane is a map of one lane at NRZ and STD (R340, R344). -/
def training (s : State) (x : Nat) : Bool := lnkState s x ≠ lnkUp

/-- Mode of a link's frames: 0 NRZ, 1 PAM4 (R352). -/
def linkMode (s : State) (x : Nat) : Nat := if training s x then 0 else s.fld (aLnkWidth x) 21 20

def mapLanes (w : BitVec 18) : List Nat := (List.range 18).filter fun l => w.getLsbD l

/-! ### Sending frames (R251, R312, R313, R317, R318) -/

/-- Lanes of a port that are lit: none while it is dark (R303), and not those of a line without light. -/
def litLanes (s : State) (x : Nat) : List Nat :=
  if s.fld (aEyeState x) 2 0 = 3 then (List.range 18).filter fun l => laneRole s (96 + x) true l ≠ roleDark else []

/-- Lanes that carry a training stream: every lit lane in negotiation, those of the transmit usable set in a retrain. -/
def trainingLanes (s : State) (x : Nat) : List Nat :=
  (litLanes s x).filter fun l => lnkState s x ≠ lnkRetrain || s.bit (aRngUse (96 + x)) l

/-- The symbols that lane `l` carries in a frame that takes `chunk` of the stream: its share of a map's stream, all of a training
stream, none where it holds no data position. -/
def laneShare (s : State) (x : Nat) (chunk : List Sym) (l : Nat) : List Sym :=
  if training s x then (if (trainingLanes s x).contains l then chunk else [])
  else
    let ps := mapLanes (txMap s x)
    if ps.contains l then ((deal ps.length chunk)[ps.idxOf l]?).getD [] else []

/-- A lane's frame: its levels, and the codes that drive its DAC. -/
def sendLane (s : State) (x : Nat) (chunk : List Sym) (acc : LinkPhy × List (Fin 18 × List Nat)) (l : Nat) :
    LinkPhy × List (Fin 18 × List Nat) :=
  let mode := linkMode s x
  let fill := (SMap.get (fun _ => none) acc.1.prbs l).getD (Config.prbsStart (18 * x + l))
  let (bits, fill) := frameBits (txGen s x) l (laneShare s x chunk l) fill
  let levels := toLevels mode bits
  let cal := SMap.get (fun _ => {}) s.opt.lanes (calKey (96 + x) l mode)
  ({ acc.1 with
      level := SMap.set (fun _ => 0) acc.1.level l (levels.getLastD 0)
      prbs := SMap.set (fun _ => none) acc.1.prbs l (some fill) },
    acc.2 ++ [(Fin.ofNat 18 l, driveLane mode cal.levels cal.pdc (SMap.get (fun _ => 0) acc.1.level l) levels)])

/-- One frame on every lit lane. Accepted calibration values take effect at its boundary (R268). -/
def sendFrame (s₀ : State) (x : Nat) (chunk : List Sym) : State :=
  let s := portValues s₀ (96 + x)
  let (p, lanes) := (litLanes s x).foldl (sendLane s x chunk) (s.phy x, [])
  s.setPhy x { p with frames := p.frames ++ [lanes] }

/-- Symbols of the stream that a frame takes. -/
def frameRoom (s : State) (x : Nat) : Nat := framePlaces * (if training s x then 1 else (mapLanes (txMap s x)).length)

/-- Frames go out while the stream fills them. -/
def sendFrames (x : Nat) : Nat → State → State
  | 0, s => s
  | n + 1, s =>
    let p := s.phy x
    let room := frameRoom s x
    if room = 0 ∨ p.syms.length < room then s
    else sendFrames x n (sendFrame (s.setPhy x { p with syms := p.syms.drop room }) x (p.syms.take room))

/-- The bytes of a flit join the block; the fifth flit completes it, and it is coded and sent (R318). -/
def pushFlit (s : State) (x : Nat) (bytes : List Byte) : State :=
  let p := s.phy x
  let block := p.block ++ bytes
  if block.length < 1280 then s.setPhy x { p with block := block }
  else sendFrames x 12 (s.setPhy x
    { p with
      block := []
      frames := []
      syms := p.syms ++ flitsEncode (fecCorrects (strongFec s x)) block })

/-- An IDLE flit as the link's transmitter begins it now. -/
def pushIdle (s : State) (x : Nat) : State :=
  let k := s.link x
  pushFlit (s.setLink x { k with turn := k.turn + 1 }) x (flitBytes (beginFlit k x tIdle 0 false k.next 0 0 []) false)

/-- The stream ends at a block boundary, which IDLE flits reach, and PRBS-31 fills the places that remain of its last frame
(R338). -/
def closeStream (s : State) (x : Nat) : State :=
  let s₁ := if (s.phy x).block = [] then s else (List.range (5 - (s.phy x).block.length / 256)).foldl (fun s _ => pushIdle s x) s
  let p := s₁.phy x
  if p.syms = [] then s₁ else sendFrame (s₁.setPhy x { p with syms := [] }) x p.syms

/-- Both streams of a link are given up: their frames stop, or their map changes at the same instant. -/
def dropStreams (s : State) (x : Nat) : State :=
  s.setPhy x { level := (s.phy x).level, prbs := (s.phy x).prbs, frames := (s.phy x).frames }

/-- The receive stream starts again, with the frame in which its map took effect (R318, R338). -/
def restartReceive (s : State) (x : Nat) : State := s.setPhy x { s.phy x with rx := [], taken := 0 }

/-! ### Receiving frames (R254, R316 to R319) -/

/-- A block of the map's stream is decoded. -/
def takeBlocks (x : Nat) : Nat → State → State
  | 0, s => s
  | n + 1, s =>
    let t := fecCorrects (strongFec s x)
    let p := s.phy x
    let stream := SMap.get (fun _ => []) p.rx 18
    let size := codedSyms t 5
    if stream.length < size then s
    else
      let c := flitsDecode t 5 (stream.take size)
      let s₁ := tallyLanes s [18 * (96 + x)] (mapLanes (rxMap s x)) p.taken size c.fixed fun _ => []
      takeBlocks x n ((s₁.setPhy x
        { p with
          rx := SMap.set (fun _ => []) p.rx 18 (stream.drop size)
          taken := p.taken + size
          ready := p.ready ++ c.flits }).count (aLnkErr0 x) 15 0 c.lost)

/-- Of the copies of a flit that the training lanes bring, the first that decodes and passes its CRC; otherwise it is lost
(R344). -/
def bestCopy (copies : List RxFlit) : RxFlit :=
  (copies.find? fun f => !f.lost && (parseFlit f.bytes).isSome).getD { bytes := [], lost := true }

/-- The frames of one instant on the training map: each lane's stream goes on by itself, and a block that they complete gives the
best copies of its flits. -/
def takeTraining (s : State) (x : Nat) (syms : Nat → List Sym) : State :=
  let p := s.phy x
  let stream (l : Nat) : List Sym := SMap.get (fun _ => []) p.rx l ++ syms l
  let size := codedSyms 8 5
  if (stream 0).length < size then
    s.setPhy x { p with rx := (List.range 18).foldl (fun m l => SMap.set (fun _ => []) m l (stream l)) p.rx }
  else
    let cs := (List.range 18).map fun l => flitsDecode 8 5 ((stream l).take size)
    let s₁ := (cs.zipIdx).foldl (fun s c => fecTake s (18 * (96 + x) + c.2) size c.1.fixed) s
    (s₁.setPhy x
      { p with
        rx := (List.range 18).foldl (fun m l => SMap.set (fun _ => []) m l ((stream l).drop size)) p.rx
        ready := p.ready ++ (List.range 5).map fun i => bestCopy (cs.filterMap fun c => c.flits[i]?) }).count
      (aLnkErr0 x) 15 0 (cs.map (·.lost)).sum

/-- The frames of one instant reach an external port's receiver, as the levels that its slicers read by lane. -/
def takeFrames (s : State) (x : Nat) (lanes : List (Fin 18 × List Nat)) : State :=
  let levels (l : Nat) : List Nat := ((lanes.find? fun p => p.1.val = l).map (·.2)).getD []
  let syms (l : Nat) : List Sym := frameSyms l (fromLevels (linkMode s x) (levels l))
  if lanes = [] then s
  else if training s x then takeTraining s x syms
  else
    let ps := mapLanes (rxMap s x)
    let p := s.phy x
    let stream := SMap.get (fun _ => []) p.rx 18 ++ gather (ps.map syms) (framePlaces * ps.length)
    takeBlocks x 2 (s.setPhy x { p with rx := SMap.set (fun _ => []) p.rx 18 stream })

/-! ### The Pofold link's symbols (R409, R410, R412) -/

/-- Lanes of the link in use (R437). -/
def pflLanes (s : State) : Nat := s.fld aHlkState 11 8

/-- Data words as a lane sends them, with the K.SYNC that is due and the scrambler of the lane: the symbols, the scrambler and the
symbols since K.SYNC. -/
def sendWords (lane : Nat) : Nat → BitVec 58 → List Nat → List Nat × BitVec 58 × Nat
  | since, r, [] => ([], r, since)
  | since, r, w :: ws =>
    let fresh := since % 1024 = 0
    let (key, r) := keyWord (if fresh then scramblerSeed 3 lane else r)
    let (rest, r, n) := sendWords lane (if fresh then 2 else since + 1) r ws
    ((if fresh then [controlSym kSync] else []) ++ dataSym (w ^^^ key) :: rest, r, n)

/-- A flit goes out over the lanes in use. -/
def pushPfl (s : State) (bytes : List Byte) : State :=
  let p := s.phy pfl
  let n := pflLanes s
  let ws := flitWords bytes
  let out := (List.range n).map fun l => (l, sendWords l p.since (SMap.get (scramblerSeed 3) p.txScr l) (laneWords n l ws))
  s.setPhy pfl
    { p with
      frames := [out.map fun o => (Fin.ofNat 18 o.1, o.2.1)]
      since := (out.map fun o => o.2.2.2).headD p.since
      txScr := out.foldl (fun m o => SMap.set (scramblerSeed 3) m o.1 o.2.2.1) p.txScr }

/-- Control symbols on every lane in use; after a K.SYNC the scramblers start again. -/
def pushControl (s : State) (codes : List Nat) : State :=
  let p := s.phy pfl
  s.setPhy pfl
    { p with
      frames := [(List.range (pflLanes s)).map fun l => (Fin.ofNat 18 l, codes.map controlSym)]
      since := if codes.getLastD 0 = kSync then 1 else p.since
      txScr := if codes.getLastD 0 = kSync then [] else p.txScr }

/-- What a lane's received symbols hold: the data words, the scrambler after them, and the places of prefix errors. -/
def takeWords (lane : Nat) : BitVec 58 → List Nat → List (Nat × Bool) × BitVec 58
  | r, [] => ([], r)
  | r, x :: xs =>
    if syncMatches x then takeWords lane (scramblerSeed 3 lane) xs
    else
      match readSym x with
      | .control _ => takeWords lane r xs
      | .data v => let k := keyWord r; let rest := takeWords lane k.2 xs; ((v ^^^ k.1, false) :: rest.1, rest.2)
      | .bad => let k := keyWord r; let rest := takeWords lane k.2 xs; ((x % 2 ^ 16 ^^^ k.1, true) :: rest.1, rest.2)

/-- Places of a lane's symbols that are prefix errors. -/
def prefixErrors (xs : List Nat) : List Nat :=
  (xs.zipIdx.filter fun x => !syncMatches x.1 && readSym x.1 = .bad).map (·.2)

/-- A lane's symbols count, their prefix errors for the link and for the lane (R409, R413). -/
def tallyPrefixes (s : State) (l : Nat) (xs : List Nat) : State :=
  let errs := prefixErrors xs
  let c : SymbolCount := SMap.get (fun _ => {}) s.hlk.prefixes l
  { s with hlk :=
    { s.hlk with prefixes := SMap.set (fun _ => {}) s.hlk.prefixes l (c.take (2 ^ 30) xs.length errs s.ns) } }.count
    aHlkErr0 15 0 errs.length

/-- A lane's symbols arrive. -/
def takeLane (s : State) (l : Nat) (xs : List Nat) : State :=
  let p := s.phy pfl
  let (ws, r) := takeWords l (SMap.get (scramblerSeed 3) p.rxScr l) xs
  tallyPrefixes (s.setPhy pfl
    { p with
      rxScr := SMap.set (scramblerSeed 3) p.rxScr l r
      words := SMap.set (fun _ => []) p.words l (SMap.get (fun _ => []) p.words l ++ ws) }) l xs

/-- Flits whose 128 words have arrived on the lanes in use; one with a symbol in error is lost. -/
def takeWhole (n : Nat) : Nat → State → State
  | 0, s => s
  | k + 1, s =>
    let p := s.phy pfl
    let lane (l : Nat) : List (Nat × Bool) := SMap.get (fun _ => []) p.words l
    if n = 0 || (List.range n).any fun l => decide ((lane l).length < 128 / n) then s
    else
      let ws := (List.range 128).map fun i => (lane (i % n)).getD (i / n) (0, false)
      let flit : RxFlit :=
        { bytes := ws.flatMap fun w => [BitVec.ofNat 8 (w.1 / 256), BitVec.ofNat 8 w.1]
          lost := ws.any (·.2) }
      takeWhole n k (s.setPhy pfl
        { p with
          words := (List.range n).foldl (fun m l => SMap.set (fun _ => []) m l ((lane l).drop (128 / n))) p.words
          ready := p.ready ++ [flit] })

/-- Symbols arrive on the Pofold link. -/
def takeSymbols (s : State) (lanes : List (Fin 18 × List Nat)) : State :=
  let s₁ := lanes.foldl (fun s x => if x.1.val < pflLanes s then takeLane s x.1 x.2 else s) s
  takeWhole (pflLanes s) (lanes.foldl (fun n x => n + x.2.length) 0 / 16 + 1) s₁

/-- What the lanes of a link bring. -/
def takeIn (s : State) (l : Nat) (lanes : List (Fin 18 × List Nat)) : State :=
  if isPfl l then takeSymbols s lanes else takeFrames s l lanes

end Sys2Proof.Machine
end

