-- ==== Sys2Proof/Machine/LinkFlit.lean ====
section
/-! DEFINITION. Flits of the external ports and of the Pofold link: formed, sent, received, acknowledged and replayed (R319 to
R336, R420 to R423). Link 16 is the Pofold link. -/
namespace Sys2Proof.Machine

/-! ### Buffers and channels -/

/-- Flits of the replay buffer (R328, R420), and the replay timer in beats (R330, R353, R420). -/
def bufSize (l : Nat) : Nat := if isPfl l then 128 else 512
def timerNs (s : State) (l : Nat) : Nat := if isPfl l then 1000 else s.fld (aLnkCfg l) 15 8 * 250

/-- Own receive pools (R333, R420). -/
def ownPool (l c : Nat) : Nat :=
  if isPfl l then (match c with | 0 => 64 | 1 => 128 | 2 => 256 | _ => 128) else if c = 0 then 256 else 512

/-- A new flit of a channel may be sent (R334). -/
def hasCredit (v : Chan) : Bool := v.credit - v.sent ≠ 0 && decide ((v.credit - v.sent).toNat < 2 ^ 31)

/-- The channels of a fresh start: full pools (R342, R424). -/
def freshChans (l : Nat) (pools : List Nat) : SMap Chan :=
  (List.range (if isPfl l then 4 else 2)).map fun c =>
    (c, { credit := BitVec.ofNat 32 ((pools[c]?).getD 0), free := BitVec.ofNat 32 (ownPool l c) })

/-- A fresh start: sequence 0, full pools and empty buffers; what waits for a flit stays (R342). -/
def freshLink (l : Nat) (pools : List Nat) (k : XLink) : XLink :=
  { k with
    chans := freshChans l pools
    buf := []
    next := 0
    acked := 0xFFFF
    reqWait := 0
    exp := 0
    held := []
    naked := []
    inbox := []
    timer := none
    toldAck := none
    told := []
    culprit := none }

/-! ### Retrains (R340, R423) -/

/-- A link's own lanes of the receive map are all aligned. -/
def mapAligned (s : State) (x : Nat) : Bool :=
  (List.range 18).all fun l => !(s.bit (aLnkRxmap x) l) || (s.link x).aligned.getLsbD l

def readyMsg (ok : Bool) : List Byte := padTo 16 [0x06, 1, if ok then 1 else 0]
def retrainMsg (code : Nat) : List Byte := padTo 16 [0x05, 1, BitVec.ofNat 8 code]

/-- Byte 2 of a RETRAIN message, by cause. -/
def retrainCode : RetrainCause → Nat
  | .eighthReplay => 1 | .protocol => 2 | .widthLimit => 3 | .message => 4

/-- NOTIFY source 5: port and state code (R432). -/
def portNotice (s : State) (x : Nat) : State := s.notify 5 (BitVec.ofNat 56 (x + 256 * lnkState s x)) []

/-- A retrain of an external port begins, for the flit that caused it if one did. -/
def beginRetrain (s : State) (x : Nat) (cause : RetrainCause) (flit : Option (BitVec 16)) : State :=
  let s₁ := (restartReceive ((closeStream s x).setFld (aLnkState x) 2 0 lnkRetrain) x).count (aLnkErr2 x) 31 24 1
  let k := s₁.link x
  let s₂ := s₁.setLink x { k with culprit := flit.map fun n => (n, s.stampNs), timer := none }
  let s₃ := lctlSend (lctlSend s₂ x (retrainMsg (retrainCode cause)) true) x (readyMsg (mapAligned s₂ x)) false
  portNotice (s₃.report (corrected 26 0x30 x)) x

/-- DOWN: kind 0x0B, cause (R336). -/
def downMsg (cause : Nat) : List Byte := padTo 16 [0x0B, 1, BitVec.ofNat 8 cause]

/-- Codes of LNK_STATE.CAUSE (R351). -/
def downCode : DownCause → Nat
  | .retrains => 1 | .dark => 2 | .lanes => 3 | .ctl => 4 | .reneg => 5 | .received => 6

/-- Peers of X0 to X13 that are UP (R362). -/
def upPeers (s : State) : List Nat := (List.range 14).filter fun x => lnkAlive s x

/-- OFFSET of a port, signed, in 1/16 beat (R387). -/
def offsetOf (s : State) (x : Nat) : Int := int16' (s.fld (aMmLink x) 15 0)
where int16' (n : Nat) : Int := (BitVec.ofNat 16 n).toInt

/-- MAXOFF: the largest offset magnitude to an UP peer. -/
def settleMaxoff (s : State) : State :=
  s.setFld aMmAlign 15 8 (min 255 ((upPeers s).foldl (fun m x => max m (offsetOf s x).natAbs) 0))

/-- MAXOFF is that of the peers left; without an UP peer the module is SOLO (R386). -/
def losePeer (s : State) : State := settleMaxoff (if upPeers s = [] then s.setFld aMmAlign 2 0 0 else s)

/-- Changes of the usable sets that were under way are made: the port carries nothing any more, and negotiation selects the lanes
(R247, R339). -/
def setsSettled (s : State) (x : Nat) : State :=
  let k := s.link x
  let own := ((k.change.bind (·.why)).toList ++ k.changes).filter fun c => c.own
  let s₁ := own.foldl (fun s c => s.setBit (aRngUse (96 + x)) c.lane.val c.enter) (portValues s (96 + x))
  settlePort (k.rxAsk.foldl (fun s c => s.setBit (aRngRxuse (96 + x)) c.1.val c.2) s₁) (96 + x)

/-- A link goes down (R341): it keeps its replay buffer, its reorder state and its counters, holds its traffic for the grace
period, and begins to come up again by ring search, or by the margin test after a renegotiation. A calibration turn on the port is
abandoned (R32). -/
def linkDown (s : State) (x : Nat) (cause : DownCause) : State :=
  if lnkState s x ≤ lnkDown then s
  else
    let alive := lnkAlive s x
    let s₀ := dropStreams (setsSettled (abandonTurn s (96 + x)) x) x
    let s₁ := (s₀.setFld (aLnkState x) 15 12 (downCode cause)).setFld (aLnkState x) 2 0 lnkDown
    let k := s₁.link x
    let tells := alive && cause ≠ .dark && cause ≠ .received
    let s₂ := s₁.setLink x
      { k with
        lctl := if tells then List.replicate 8 (downMsg (downCode cause)) else []
        repeats := []
        lctlIn := []
        change := none
        changes := []
        rxAsk := []
        rxChange := none
        aligned := 0
        adv := none
        conf := none
        pconf := none
        culprit := none
        timer := none
        probes := []
        meas := []
        graceFrom := if alive then s.stampNs else k.graceFrom
        graceMs := if alive then s.fld (aLnkCfg x) 22 16 else k.graceMs }
    let s₃ := losePeer ((s₂.setFld (aLnkWidth x) 28 24 0).setBit aMmPeer x false)
    let held := s.bit (aLnkCtl x) 1
    let s₄ := if held then setRngState s₃ (96 + x) rngDown
      else if cause = .reneg then beginMargin s₃ (96 + x)
      else beginSearch s₃ (96 + x)
    if !alive then s₄
    else portNotice (((s₄.setBit (aLnkState x) 8 true).count (aLnkErr2 x) 23 16 1).report (corrected 26 0x30 x)) x

/-- A retrain has failed; the third in a row takes the port down (R340). -/
def retrainFailed (s : State) (x : Nat) : State :=
  let s₁ := s.setFld (aLnkState x) 5 4 (min (s.fld (aLnkState x) 5 4 + 1) 3)
  if s₁.fld (aLnkState x) 5 4 = 3 then linkDown s₁ x .retrains else s₁

/-- A retrain starts from UP. The same flit within 10 ms of its last retrain makes that one a failed retrain (R340). -/
def startRetrain (s : State) (x : Nat) (cause : RetrainCause) (flit : Option (BitVec 16)) : State :=
  if lnkState s x ≠ lnkUp then s
  else
    let again := match flit, (s.link x).culprit with
      | some n, some (m, b) => n = m && decide (s.ns ≤ b.toNat + 10000000)
      | _, _ => false
    let s₁ := if again then retrainFailed s x else s
    if lnkState s₁ x = lnkUp then beginRetrain s₁ x cause flit else s₁

/-- Rates that the module offers: bit 0 20 Gb/s, bit 1 40 Gb/s (R418, R436). -/
def ownRates (s : State) : Nat := if s.bit aHlkCfg 6 then 3 else 1

/-- Training from step 2 of R419 on a rate. -/
def trainAt (s : State) (rate40 : Bool) : State :=
  { s with hlk :=
    { s.hlk with
      phase := 2
      rate40 := rate40
      eqDone := 0
      requests := []
      sel := none
      farSel := none } }

/-- The Pofold link leaves its lanes (R437). -/
def lanesIdle (s : State) : State := (List.range 8).foldl (fun s l => s.setBit (aHlkLane l) 0 false) (s.setFld aHlkState 11 8 0)

/-- The Pofold link retrains (R423): at the rates that both ends offer, its buffers kept. -/
def hlkStartRetrain (s : State) : State :=
  if hlkState s ≠ hlkUp then s
  else
    let s₁ := lanesIdle (((s.setFld aHlkState 2 0 hlkRetrain).setFld aHlkState 4 3 0).count aHlkErr1 15 8 1)
    let s₂ := trainAt s₁ ((ownRates s).testBit 1 && s.hlk.farRates.testBit 1)
    { s₂ with
      hlk := { s₂.hlk with retrain := true, pass20 := 0, pass40 := 0, farPass20 := 0, farPass40 := 0 }
      links := (s₂.setLink pfl { s₂.link pfl with timer := none }).links }.report (corrected 27 0x38 0)

/-- A protocol error: counted on an external port, and a retrain starts (R322, R340). -/
def protocolError (s : State) (l : Nat) : State :=
  if isPfl l then hlkStartRetrain s else startRetrain (s.count (aLnkErr2 l) 15 0 1) l .protocol none

/-! ### Replays (R328 to R332) -/

/-- A flit of the buffer is due; for its eighth replay the link retrains instead (R332). -/
def markDue (s : State) (l : Nat) (seq : BitVec 16) : State :=
  let k := s.link l
  match k.buf.find? fun f => f.seq = seq with
  | none => s
  | some f =>
    if f.replays ≥ 7 then (if isPfl l then hlkStartRetrain s else startRetrain s l .eighthReplay (some seq))
    else s.setLink l { k with buf := k.buf.map fun (g : XTx) => if g.seq = seq then { g with due := true } else g }

/-- Step 5 of R340: every unacknowledged flit is due, in sequence order; a flit at its limit counts from 0 again (R332). -/
def replayAll (k : XLink) : XLink :=
  { k with buf := k.buf.map fun (f : XTx) => { f with due := true, replays := if f.replays ≥ 7 then 0 else f.replays } }

/-- An ACK (R326): the buffer is freed up to it, and the timer restarts as it advances; the flit of the last retrain ends its
run of failures (R340). An older number is ignored, one not yet sent is a protocol error. -/
def takeAck (s : State) (l : Nat) (ack : BitVec 16) : State :=
  let k := s.link l
  let δ := (ack - k.acked).toNat
  let out := (k.next - 1 - k.acked).toNat
  if δ = 0 then s
  else if δ ≤ out then
    let buf := k.buf.filter fun f => !decide ((f.seq - k.acked).toNat ≤ δ)
    let cleared := match k.culprit with | some (n, _) => decide ((n - k.acked).toNat ≤ δ) | none => false
    let s₁ := s.setLink l
      { k with
        acked := ack
        buf := buf
        timer := if buf.isEmpty then none else some s.stampNs
        culprit := if cleared then none else k.culprit }
    if cleared && !isPfl l then s₁.setFld (aLnkState l) 5 4 0 else s₁
  else if (k.acked - ack).toNat ≤ 512 then s
  else protocolError s l

/-- REPLAY_TIMER (R330). -/
def replayTimer (s : State) (l : Nat) : State :=
  let k := s.link l
  match k.timer, k.buf with
  | some b, f :: _ =>
    if linkUp s l && decide (b.toNat + timerNs s l ≤ s.ns) then
      markDue (s.setLink l { k with timer := some s.stampNs }) l f.seq
    else s
  | _, _ => s

def execReplayTimer (l : LinkId) (s : State) : Host.Outcome State Fault Refusal := .next (replayTimer s l)

/-- A link-control message that has arrived is handled. -/
def lctlTake (s : State) (l : Nat) (p : List Byte → Bool) : State :=
  s.setLink l { s.link l with lctlIn := (s.link l).lctlIn.eraseP p }

/-- NAK of a number (R327). -/
def nakMsg (n : BitVec 16) : List Byte := padTo 16 ([0x01, 1] ++ leBytes 2 n.toNat)

/-- NAK: the named flit alone; a number already acknowledged is ignored. -/
def execNak (l : LinkId) (seq : BitVec 16) (s : State) : Host.Outcome State Fault Refusal :=
  let s₁ := lctlTake s l fun m => m = nakMsg seq
  .next (if linkUp s₁ l then markDue s₁ l seq else s₁)

/-! ### Forming and sending flits (R323, R331, R422) -/

/-- A message as the flit former sees it: its bytes, and the message to the host it is. -/
structure OutMsg where
  bytes : List Byte
  host : Option Sent

/-- Messages that wait on a channel, oldest first; on X15 those to a remote host follow the responses (R434). -/
def outQueue (s : State) (l c : Nat) : List OutMsg :=
  let toHost (qs : List Sent) : List OutMsg := qs.map fun q => ⟨hostBytes q, some q⟩
  if isPfl l then toHost (s.hostOut.filter fun q => (hostChan q.msg).val = c)
  else
    let k := s.link l
    let ms : List OutMsg := (if c = 0 then k.reqq else k.rspq).map fun m => ⟨xmsgBytes m, none⟩
    ms ++ (if c = 1 ∧ l = 15 ∧ s.x15Host then toHost s.hostOut else [])

/-- The first `n` messages of a channel leave their queue. -/
def dropOut (s : State) (l c n : Nat) : State :=
  let taken := (outQueue s l c).take n
  let hosts := taken.filterMap (·.host)
  let own := taken.length - hosts.length
  let k := s.link l
  let s₁ := if isPfl l then s
    else s.setLink l (if c = 0 then { k with reqq := k.reqq.drop own } else { k with rspq := k.rspq.drop own })
  { s₁ with hostOut := hosts.foldl (fun qs q => qs.erase q) s₁.hostOut }

/-- Messages that fit whole into what is left of a payload: how many, and their bytes. -/
def packMsgs (room : Nat) : List OutMsg → Nat × List Byte
  | [] => (0, [])
  | m :: ms =>
    if m.bytes.length ≤ room then
      let (n, b) := packMsgs (room - m.bytes.length) ms
      (n + 1, m.bytes ++ b)
    else (0, [])

/-- A MSG flit of a channel is ready. -/
def msgReady (s : State) (l c : Nat) : Bool := ((s.link l).chan c).rest ≠ [] || (outQueue s l c) ≠ []

/-- The payload of the next MSG flit of a channel, and the messages to the host that end in it. A message too long for one
flit starts a new one and fills it and the next ones alone (R323). -/
def formMsg (s : State) (l c : Nat) : State × List Byte × List Sent :=
  let k := s.link l
  let v := k.chan c
  if v.rest ≠ [] then
    let rest := v.rest.drop 240
    let v₁ := { v with rest := rest, cur := if rest = [] then none else v.cur }
    (s.setLink l (k.setChan c v₁), v.rest.take 240, if rest = [] then v.cur.toList else [])
  else
    match outQueue s l c with
    | [] => (s, [], [])
    | m :: ms =>
      if m.bytes.length ≤ 240 then
        let (n, b) := packMsgs 240 (m :: ms)
        (dropOut s l c n, b, ((m :: ms).take n).filterMap (·.host))
      else
        let s₁ := dropOut s l c 1
        let k₁ := s₁.link l
        (s₁.setLink l (k₁.setChan c { k₁.chan c with rest := m.bytes.drop 240, cur := m.host }), m.bytes.take 240, [])

/-- LNK_INJ or HLK_INJ names the flit that goes out; its CRC is inverted, once (R355, R438). -/
def injAddr (l : Nat) : Nat := if isPfl l then aHlkInj else aLnkInj l
def injHits (s : State) (l : Nat) (seq : BitVec 16) : Bool := s.bit (injAddr l) 31 && s.fld (injAddr l) 15 0 = seq.toNat

/-- A flit goes out, onto the lanes of its link. -/
def putFlit (s : State) (l typ vc : Nat) (first : Bool) (seq : BitVec 16) (entry : BitVec 12) (plen : Nat) (payload : List Byte) :
    State :=
  let k := s.link l
  let bad := decide (2 ≤ typ) && injHits s l seq
  let f := beginFlit k l typ vc first seq entry plen payload
  let bytes := flitBytes f bad
  let c := k.turn % (if isPfl l then 4 else 2)
  let s₁ := s.setLink l
    { k with wire := bytes, turn := k.turn + 1, toldAck := some f.ack, told := SMap.set (fun _ => none) k.told c (some f.credit) }
  let s₂ := if bad then s₁.setBit (injAddr l) 31 false else s₁
  if isPfl l then pushPfl s₂ bytes else pushFlit s₂ l bytes

/-- A new sequenced flit joins the buffer and goes out; the timer starts when the buffer was empty (R328, R330). -/
def putNew (s : State) (l : Nat) (f : XTx) : State :=
  let k := s.link l
  let g := { f with seq := k.next }
  let v := k.chan f.vc.val
  let k₁ := (k.setChan f.vc.val { v with sent := v.sent + 1 })
  putFlit (s.setLink l
    { k₁ with
      next := k.next + 1
      buf := k.buf ++ [g]
      timer := if k.buf.isEmpty then some s.stampNs else k.timer })
    l f.typ.val f.vc.val f.first k.next f.entry f.plen f.payload

/-- The next MSG flit of a channel. -/
def putMsg (s : State) (l c : Nat) : State :=
  let (s₁, b, hosts) := formMsg s l c
  putNew s₁ l
    { seq := 0, typ := 2, vc := Fin.ofNat 4 c, first := false, entry := 0, plen := b.length, payload := b, msgs := hosts }

/-- The next PLAN flit (R321, R367). -/
def putPlan (s : State) (l : Nat) (p : PlanFlit) (ps : List PlanFlit) : State :=
  putNew (s.setLink l { s.link l with planq := ps }) l
    { seq := 0, typ := 3, vc := 1, first := p.first, entry := p.entry, plen := p.plen, payload := p.payload, origin := p.origin }

/-- Link-control messages for one flit: whole ones while the 15 positions last (R336). -/
def packLctl (room : Nat) : List (List Byte) → List (List Byte) × List (List Byte)
  | [] => ([], [])
  | m :: ms =>
    if m.length ≤ room then
      let (a, b) := packLctl (room - m.length) ms
      (m :: a, b)
    else ([], m :: ms)

/-- A replay goes out under its own number (R324, R330); it counts for its launch (R523). -/
def putReplay (s : State) (l : Nat) (f : XTx) : State :=
  let k := s.link l
  let s₁ := s.setLink l
    { k with
      reqWait := 0
      buf := k.buf.map fun (g : XTx) => if g.seq = f.seq then { g with due := false, replays := g.replays + 1 } else g }
  let s₂ := putFlit s₁ l f.typ.val f.vc.val f.first f.seq f.entry f.plen f.payload
  countReplay (s₂.count (if isPfl l then aHlkErr1 else aLnkErr1 l) 31 16 1) f.origin

/-- What an external port sends when neither a link-control flit nor a replay is ready: a REQ flit that has waited through
three places, an RSP or PLAN flit, a REQ flit, or IDLE (R331). -/
def sendNewX (s : State) (x : Nat) : State :=
  let k := s.link x
  let full := decide (k.buf.length ≥ bufSize x)
  let req := !full && msgReady s x 0 && hasCredit (k.chan 0)
  let rsp := !full && hasCredit (k.chan 1)
  let wait (s : State) (n : Nat) : State := s.setLink x { s.link x with reqWait := n }
  let waits := if req then k.reqWait + 1 else 0
  if req && decide (k.reqWait ≥ 3) then wait (putMsg s x 0) 0
  else if rsp && msgReady s x 1 then wait (putMsg s x 1) waits
  else match (if rsp then k.planq else []) with
    | p :: ps => wait (putPlan s x p ps) waits
    | [] => if req then wait (putMsg s x 0) 0 else putFlit s x tIdle 0 false k.next 0 0 []

/-- The Pofold link serves its channels round-robin from the one after the last served (R422). -/
def sendNewPfl (s : State) : State :=
  let k := s.link pfl
  let full := decide (k.buf.length ≥ bufSize pfl)
  match ([1, 2, 3, 4].map fun i => (k.served + i) % 4).find? fun c => !full && msgReady s pfl c && hasCredit (k.chan c) with
  | some c => let s₁ := putMsg s pfl c; s₁.setLink pfl { s₁.link pfl with served := c }
  | none => putFlit s pfl tIdle 0 false k.next 0 0 []

/-- FLIT_SEND: the flit place is filled by the order of R331. A link that is not UP sends link-control flits only, one that is
down its DOWN messages, and an idle transmit direction of the Pofold link nothing. -/
def flitSend (s : State) (l : Nat) : State :=
  let k := s.link l
  if isPfl l && (!linkUp s l || s.bit aHlkState 4) then s
  else match packLctl 240 k.lctl with
    | (m :: ms, left) =>
      if !linkTalks s l && lnkState s l ≠ lnkDown then s
      else
        let b := (m :: ms).flatMap id
        putFlit (s.setLink l { k with lctl := left, reqWait := 0 }) l tLctl (if isPfl l then 0 else 2) false k.next 0 b.length b
    | ([], _) =>
      if !linkUp s l then s
      else match k.buf.find? fun f => f.due with
        | some f => putReplay s l f
        | none => if isPfl l then sendNewPfl s else sendNewX s l

def execFlitSend (l : LinkId) (s : State) : Host.Outcome State Fault Refusal := .next (flitSend s l)

/-! ### Receiving flits (R319, R322, R325 to R327) -/

/-- NAKs for numbers that have not been NAKed before (R327). -/
def sendNaks (s : State) (l : Nat) (ns : List (BitVec 16)) : State :=
  let k := s.link l
  let new := ns.filter fun n => !k.naked.contains n && !k.held.any fun h => h.1 = n
  s.setLink l { k with naked := k.naked ++ new, lctl := k.lctl ++ new.map nakMsg, lost := 0 }

/-- The numbers from EXP up to one before `seq`. -/
def gapTo (e seq : BitVec 16) : List (BitVec 16) := (List.range (seq - e).toNat).map fun i => e + BitVec.ofNat 16 i

/-- Whole messages at the head of a stream of bytes, and what follows them; `fuel` bounds their number. -/
def splitMsgs (p : Bool) : Nat → List Byte → List (List Byte) × List Byte
  | 0, b => ([], b)
  | n + 1, b =>
    if b = [] then ([], [])
    else if b.length < 16 ∨ b.length < messageLen p b then ([], b)
    else
      let (ms, rest) := splitMsgs p n (b.drop (messageLen p b))
      (b.take (messageLen p b) :: ms, rest)

/-- A MSG payload reaches its channel in sequence order: whole messages leave the receive buffer, those of another module for
their handling, those of the host through the commands they are (log entry 24). -/
def passMsg (s : State) (l c : Nat) (payload : List Byte) : State :=
  let k := s.link l
  let v := k.chan c
  let stream := v.chunks.flatMap id ++ payload
  let (ms, rest) := splitMsgs (isPfl l) 16 stream
  let host (b : List Byte) : Bool := isHostKind (isPfl l) b
  let n := v.chunks.length + 1
  let v₁ := if rest = [] then { v with chunks := [], free := v.free + BitVec.ofNat 32 n } else { v with chunks := v.chunks ++ [payload] }
  let k₁ := k.setChan c v₁
  s.setLink l { k₁ with inbox := k₁.inbox ++ (ms.filter fun b => !host b).filterMap parseXmsg }

/-- A flit passes on to its VC (R325). -/
def passFlit (s : State) (l : Nat) (f : Flit) : State :=
  if f.typ = tPlan then
    let p : PlanFlit :=
      { entry := f.entry, first := f.first, payload := f.payload, plen := f.plen, origin := none
        place := some (Fin.ofNat 128 (96 + l)) }
    s.setTxq f.entry.toNat (s.txq f.entry.toNat ++ [p])
  else passMsg s l f.vc (f.payload.take f.plen)

/-- Flits held at EXP and above pass on in order. -/
def passHeld (l : Nat) : Nat → State → State
  | 0, s => s
  | n + 1, s =>
    let k := s.link l
    match k.held.find? fun h => h.1 = k.exp with
    | none => s
    | some (q, b) =>
      let s₁ := s.setLink l
        { k with
          exp := k.exp + 1
          held := k.held.filter fun h => h.1 ≠ q
          naked := k.naked.filter fun m => m ≠ q }
      passHeld l n (match parseFlit b with | some f => passFlit s₁ l f | none => s₁)

/-- A duplicate: dropped and counted (R329); the Pofold link has no counter for it. -/
def countDup (s : State) (l : Nat) : State := if isPfl l then s else s.count (aLnkErr1 l) 15 0 1

/-- A sequenced flit (R325). -/
def receiveSeq (s : State) (l : Nat) (f : Flit) (bytes : List Byte) : State :=
  let k := s.link l
  let δ := (f.seq - k.exp).toNat
  if δ ≤ 511 then
    if k.held.any fun h => h.1 = f.seq then countDup s l
    else
      let s₁ := s.setLink l { k with held := k.held ++ [(f.seq, bytes)] }
      if δ = 0 then passHeld l 512 s₁ else sendNaks s₁ l (gapTo k.exp f.seq)
  else if (k.exp - f.seq).toNat ≤ 512 then countDup s l
  else protocolError s l

/-- The messages of an LCTL payload; none when one runs past position 15 (R336). -/
def splitLctl : Nat → List Byte → Option (List (List Byte))
  | 0, _ => some []
  | n + 1, b =>
    if b = [] then some []
    else if fieldAt b 0 1 = 0 then splitLctl n (b.drop 16)
    else
      let len := 16 * max 1 (fieldAt b 1 1)
      if b.length < len then none else (splitLctl n (b.drop len)).map fun ms => b.take len :: ms

def receiveLctl (s : State) (l : Nat) (f : Flit) : State :=
  match splitLctl 15 f.payload with
  | none => protocolError s l
  | some ms => s.setLink l { s.link l with lctlIn := (s.link l).lctlIn ++ ms }

/-- CREDIT of the channel that the flit names (R333, R420). -/
def takeCredit (s : State) (l : Nat) (f : Flit) : State :=
  let c := (if f.cvc then 1 else 0) + (if isPfl l && f.first then 2 else 0)
  let k := s.link l
  s.setLink l (k.setChan c { k.chan c with credit := f.credit })

/-- TYPE or VC of a flit is reserved (R322, R420); a MSG flit belongs to REQ or RSP. -/
def reservedFlit (l : Nat) (f : Flit) : Bool :=
  decide (f.typ > 3) || (if isPfl l then f.typ = tPlan else f.vc = 3 || (f.typ = tMsg && decide (1 < f.vc)))

/-- A whole flit: ACK and CREDIT while its numbers count, then what its type is. -/
def receiveWhole (s : State) (l : Nat) (f : Flit) (bytes : List Byte) : State :=
  if reservedFlit l f then protocolError s l
  else
    let live := linkUp s l || (!isPfl l && lnkState s l = lnkRetrain)
    let s₁ := if live then takeAck (takeCredit s l f) l f.ack else s
    if f.typ = tIdle ∨ f.typ = tLctl then
      let k := s₁.link l
      let δ := (f.seq - k.exp).toNat
      let s₂ := if live && decide (0 < δ ∧ δ ≤ 512) then sendNaks s₁ l (gapTo k.exp f.seq) else s₁
      if f.typ = tLctl then receiveLctl s₂ l f else s₂
    else if live then receiveSeq s₁ l f bytes
    else s₁

/-- A lost flit is discarded whole and its loss recorded (R319); on the Pofold link, which has no FEC, it counts as one whose CRC
failed (R409, log entry 43). -/
def loseFlit (s : State) (l : Nat) : State :=
  let s₁ := s.setLink l { s.link l with lost := (s.link l).lost + 1 }
  if isPfl l then s₁.count aHlkErr0 31 16 1 else s₁

/-- A flit that codewords or its CRC lose is counted and none of its fields is used (R319). -/
def receiveOne (s : State) (l : Nat) (f : RxFlit) : State :=
  if f.lost then loseFlit s l
  else match parseFlit f.bytes with
    | none => if isPfl l then loseFlit s l else (loseFlit s l).count (aLnkErr0 l) 31 16 1
    | some g => receiveWhole s l g f.bytes

/-- FLIT_RECEIVE: what the lanes bring is decoded, and the oldest flit decoded is received. -/
def flitReceive (s : State) (l : Nat) (lanes : List (Fin 18 × List Nat)) : State :=
  if !linkTalks s l then s
  else
    let s₁ := takeIn s l lanes
    match (s₁.phy l).ready with
    | [] => s₁
    | f :: fs => receiveOne (s₁.setPhy l { s₁.phy l with ready := fs }) l f

def execFlitReceive (l : LinkId) (lanes : List (Fin 18)) (heard : List (List Nat)) (s : State) :
    Host.Outcome State Fault Refusal := .next (flitReceive s l (lanes.zip heard))

end Sys2Proof.Machine
end

