-- ==== Sys2Proof/Machine/Link.lean ====
section
/-! DEFINITION. External links beyond their flits: lane alignment, width changes, retrains, downs, flushes, negotiation, and what
the partner reports (R267, R276, R291, R314, R315, R336 to R346, R357, R358). -/
namespace Sys2Proof.Machine

def kindIs (k : Byte) (m : List Byte) : Bool := m.head? = some k

/-- LNK_WIDTH.LANES follows the two maps (R248, R352). -/
def settleWidth (s : State) (x : Nat) : State :=
  s.setFld (aLnkWidth x) 28 24 (min (bits18 (txMap s x)) (bits18 (rxMap s x)))

/-! ### Alignment (R314) -/

/-- Eight consecutive commas at 1,040-bit spacing match, and the lane lies within the 8 ns of skew that the receiver takes up. -/
def commasAlign (seen : List (BitVec 20)) (skewPs : Nat) : Bool :=
  decide (8 ≤ seen.length ∧ skewPs ≤ 8000) && seen.all fun c => (commaShows c).isSome

/-- LANE_ALIGNED. In a retrain the end whose map is aligned says so (R340). -/
def execLaneAligned (x : XPort) (c : LaneAlign) (s : State) : Host.Outcome State Fault Refusal :=
  let k := s.link x
  let s₁ := s.setLink x { k with aligned := k.aligned ||| BitVec.ofNat 18 (2 ^ c.lane.val) }
  .next (if !commasAlign c.seen c.skewPs then s
    else if lnkState s x = lnkRetrain && mapAligned s₁ x && !mapAligned s x then lctlSend s₁ x (readyMsg true) false else s₁)

/-- Four consecutive expected comma positions do not match. -/
def commasMissed (seen : List (BitVec 20)) : Bool := decide (4 ≤ seen.length) && seen.all fun c => (commaShows c).isNone

/-- LANE_ALIGN_LOSS: the lane is treated as one whose receive ring has lost its lock. -/
def execLaneAlignLoss (x : XPort) (c : LaneCommas) (s : State) : Host.Outcome State Fault Refusal :=
  let k := s.link x
  .next (if !k.aligned.getLsbD c.lane || !commasMissed c.seen then s
    else loseLock (s.setLink x { k with aligned := k.aligned &&& ~~~(BitVec.ofNat 18 (2 ^ c.lane.val)) }) (96 + x.val) false c.lane)

/-! ### Width changes (R337 to R339) -/

/-- A map grants what a LANE_REQ asks: the lane is out of it, or in it or beyond its 16 lanes (R248, R337). -/
def mapGrants (map : BitVec 18) (l : Nat) (ret : Bool) : Bool := if ret then map.getLsbD l || bits18 map = 16 else !map.getLsbD l

/-- ANNOUNCE: accepted when the map holds 8 or more lanes, each of them aligned, or carrying training frames in a retrain (R337,
R340, log entry 87); it answers the LANE_REQs that it grants. -/
def announce (s : State) (x : Nat) (map : BitVec 18) (gen : Bool) (q : BitVec 16) : State :=
  let s₁ := lctlTake s x fun m => m = mapMsg 0x02 map gen q
  if lnkState s x ≠ lnkUp ∧ lnkState s x ≠ lnkRetrain then s₁
  else
    let s₂ := lctlAnswered s₁ x fun m => kindIs 0x04 m && mapGrants map (fieldAt m 2 1) (fieldAt m 3 1 = 1)
    let k := s₂.link x
    let ok := decide (8 ≤ bits18 map) && (decide (lnkState s x = lnkRetrain) || map &&& ~~~k.aligned = 0)
    let s₃ := if gen = rxGen s x then s₂ else s₂.setLink x { k with rxChange := some { map := map, gen := gen, s := q, accepted := ok } }
    if ok then lctlSend s₃ x (mapMsg 0x03 map gen 0) false else s₃

def execAnnounce (x : XPort) (map : BitVec 18) (gen : Bool) (q : BitVec 16) (s : State) : Host.Outcome State Fault Refusal :=
  .next (announce s x map gen q)

/-- ACCEPT of the change announced. -/
def execAccept (x : XPort) (map : BitVec 18) (gen : Bool) (s : State) : Host.Outcome State Fault Refusal :=
  let s₁ := lctlTake s x fun m => kindIs 0x03 m && m = mapMsg 0x03 map gen (BitVec.ofNat 16 (fieldAt m 8 2))
  let k := s₁.link x
  .next (match k.change with
    | some c =>
      if c.map = map ∧ c.gen = gen then
        lctlAnswered (s₁.setLink x { k with change := some { c with accepted := true } }) x (kindIs 0x02)
      else s₁
    | none => s₁)

/-- LANE_REQ: the transmitter announces. -/
def execLaneReq (x : XPort) (l : LaneId) (ret : Bool) (s : State) : Host.Outcome State Fault Refusal :=
  let s₁ := lctlTake s x fun m => m = laneReqMsg l ret
  let k := s₁.link x
  let c : LaneChange := { lane := l, enter := ret, own := false }
  .next (if lnkState s x ≠ lnkUp ∧ lnkState s x ≠ lnkRetrain then s₁
    else if k.changes.contains c || (k.change.bind (·.why)) = some c then s₁
    else pumpChanges (s₁.setLink x { k with changes := k.changes ++ [c] }) x)

/-- The transmit side ends its stream and changes to the map announced, with the new generation (R338): its lane enters or leaves
its set (R247). -/
def applyChange (s₀ : State) (x : Nat) (c : MapChange) : State :=
  let s := closeStream s₀ x
  let s₁ := (s.setFld (aLnkWidth x) 17 0 c.map.toNat).setBit (aLnkWidth x) 18 c.gen
  let s₂ := settleWidth (s₁.setLink x { s₁.link x with change := none }) x
  match c.why with | some w => putChange s₂ x w | none => s₂

/-- The receive side changes to the map accepted (R315, R338): the lanes asked for enter or leave its usable set (R247). -/
def applyRxChange (s₀ : State) (x : Nat) (c : MapChange) : State :=
  let s := restartReceive s₀ x
  let s₁ := (s.setFld (aLnkRxmap x) 17 0 c.map.toNat).setBit (aLnkRxmap x) 18 c.gen
  let k := s₁.link x
  let done := k.rxAsk.filter fun a => mapGrants c.map a.1.val a.2
  let s₂ := s₁.setLink x { k with rxChange := none, rxAsk := k.rxAsk.filter fun a => !mapGrants c.map a.1.val a.2 }
  settlePort (done.foldl (fun s a => s.setBit (aRngRxuse (96 + x)) a.1.val a.2) (settleWidth s₂ x)) (96 + x)

/-- MAP_CHANGE: an accepted change takes effect, and the next queued one is announced. -/
def execMapChange (x : XPort) (s : State) : Host.Outcome State Fault Refusal :=
  .next (match (s.link x).change with
    | some c => if c.accepted && lnkState s x = lnkUp then pumpChanges (applyChange s x c) x else s
    | none => s)

/-- ANNOUNCE_TIMEOUT: the retrain adopts the new map (R339). -/
def execAnnounceTimeout (x : XPort) (s : State) : Host.Outcome State Fault Refusal :=
  .next (match (s.link x).change with
    | some c =>
      if c.accepted || lnkState s x ≠ lnkUp then s
      else
        let s₁ := s.setLink x { s.link x with change := some { c with accepted := true } }
        startRetrain (lctlAnswered s₁ x (kindIs 0x02)) x .widthLimit none
    | none => s)

/-- Generation that the lanes of a map show: the majority's, the previous on a tie (R315). A lane whose comma matches neither
pattern shows none. -/
def shownGen (map : BitVec 18) (commas : List (Fin 18 × BitVec 20)) (prev : Bool) : Bool :=
  let shows (g : Bool) : Nat := (commas.filter fun c => map.getLsbD c.1 && commaShows c.2 = some g).length
  if shows false < shows true then true else if shows true < shows false then false else prev

/-- FRAME_GENERATION_CHANGE: the accepted map comes into use; a change not accepted is a protocol error. -/
def execFrameGenerationChange (x : XPort) (commas : List (Fin 18 × BitVec 20)) (s : State) : Host.Outcome State Fault Refusal :=
  let gen := shownGen (rxMap s x) commas (rxGen s x)
  .next (if lnkState s x ≠ lnkUp || gen = rxGen s x then s
    else match (s.link x).rxChange with
      | some c => if c.accepted ∧ c.gen = gen then applyRxChange s x c else protocolError s x
      | none => protocolError s x)

/-! ### Retrains (R340) -/

/-- RETRAIN: a cause of this end, or a RETRAIN message, which READY answers. -/
def execRetrain (x : XPort) (cause : RetrainCause) (s : State) : Host.Outcome State Fault Refusal :=
  .next (match cause with
    | .message =>
      let s₁ := lctlTake s x (kindIs 0x05)
      if lnkState s₁ x = lnkRetrain then lctlSend s₁ x (readyMsg (mapAligned s₁ x)) false else startRetrain s₁ x .message none
    | c => startRetrain s x c none)

/-- A retrain succeeds: changes accepted are applied, every unacknowledged flit is due, and changes queued are announced. -/
def retrainDone (s₀ : State) (x : Nat) : State :=
  let s := restartReceive (closeStream s₀ x) x
  let s₁ := match (s.link x).change with | some c => if c.accepted then applyChange s x c else s | none => s
  let s₂ := match (s₁.link x).rxChange with | some c => applyRxChange s₁ x c | none => s₁
  let k := s₂.link x
  let s₃ := s₂.setLink x
    { replayAll k with
      repeats := k.repeats.filter fun m => !kindIs 0x05 m
      timer := if k.buf.isEmpty then none else some s.stampNs }
  let s₄ := s₃.setFld (aLnkState x) 2 0 lnkUp
  let s₅ := if k.culprit.isNone then s₄.setFld (aLnkState x) 5 4 0 else s₄
  portNotice (pumpChanges s₅ x) x

/-- READY: with both ends aligned the retrain is over. -/
def execReady (x : XPort) (allAligned : Bool) (s : State) : Host.Outcome State Fault Refusal :=
  let s₁ := lctlTake s x fun m => m = readyMsg allAligned
  .next (if lnkState s x = lnkRetrain && allAligned && mapAligned s x then retrainDone s₁ x else s₁)

/-- RETRAIN_TIMEOUT: the retrain has failed; the third in a row takes the port down, and before that it starts again. -/
def execRetrainTimeout (x : XPort) (s : State) : Host.Outcome State Fault Refusal :=
  .next (if lnkState s x ≠ lnkRetrain then s
    else
      let k := s.link x
      let s₁ := retrainFailed s x
      if lnkState s₁ x = lnkRetrain then beginRetrain s₁ x .message (k.culprit.map (·.1)) else s₁)

/-- A LANE_REQ that has gone unanswered for 50 µs (R336). -/
def laneReqOver (s : State) (k : XLink) (m : List Byte) : Bool :=
  kindIs 0x04 m && decide (SMap.get (fun _ => 0) k.askedAt (fieldAt m 2 1) + 50000 ≤ s.ns)

/-- LCTL_REPEAT: messages whose answer has not arrived go out again, a LANE_REQ within its limit (R336). -/
def execLctlRepeat (x : XPort) (s : State) : Host.Outcome State Fault Refusal :=
  let k := s.link x
  let again := k.repeats.filter fun m => !laneReqOver s k m
  .next (s.setLink x
    { k with
      lctl := k.lctl ++ again.filter fun m => !k.lctl.contains m
      repeats := again })

/-! ### Messages to the host across a loss of their link (R424, R425, R434) -/

/-- Messages to the host that a link has sent and not had acknowledged, oldest first. -/
def unacked (k : XLink) : List Sent := k.buf.flatMap (·.msgs) ++ k.chans.filterMap fun e => e.2.cur

/-- A message survives a reset of its link: TRACE messages do not enter the return queue (R534). -/
def returns (q : Sent) : Bool := match q.msg with | .trace _ _ _ _ => false | _ => true

/-- The return queue of 4,096, whose oldest give way and are counted (R425). -/
def queueReturns (s : State) (qs : List Sent) : State :=
  let all := qs ++ s.retq
  { s with retq := all.drop (all.length - 4096) }.count aHlkRetq 31 16 (all.length - 4096)

/-- What a reset of the link that carries host messages does besides the link itself (R424): messages not acknowledged go to
the return queue, marked PRIOR; the accept counts and the session are recorded; a new session begins. -/
def hostReset (s : State) (l : Nat) : State :=
  let out := (unacked (s.link l) ++ s.hostOut).filter returns
  let s₁ := queueReturns { s with hostOut := [] } (out.map fun (q : Sent) => { q with prior := true })
  let s₂ := { s₁ with hlk :=
    { s₁.hlk with
      oldSession := s.rd aHlkSession
      oldCounts := (List.range 4).map fun c => s.rd (aHlkAccept c) } }
  let s₃ := (List.range 4).foldl (fun s c => s.wr (aHlkAccept c) 0) s₂
  s₃.wr aHlkSession (s.rd aHlkSession + 1)

/-- The link that carries host messages comes up (R425): the LINK_UP notice, then the return queue. -/
def hostLinkUp (s : State) : State :=
  let notice : Sent :=
    { msg := .notify 0 6 none (BitVec.ofNat 56 (s.hlk.oldSession.toNat * 256))
        (s.hlk.oldCounts.flatMap fun (c : Word) => leBytes 4 c.toNat)
      shadow := prtState s = 3 || prtState s = 4 || prtState s = 5 }
  { s with hostOut := s.hostOut ++ [notice] ++ s.retq, retq := [] }

/-- It comes up again without a reset: only what has been queued meanwhile follows. -/
def hostLinkBack (s : State) : State := { s with hostOut := s.hostOut ++ s.retq, retq := [] }

/-! ### Flush (R143, R196, R342, R343) -/

/-- A request that awaits its answer ends. -/
def flushRemote (s : State) (x : Nat) (w : RemoteWhat) : State :=
  match w with
  | .segment d k c i off _ => remoteAnswer s d k c i off (some xfRemoteDown) []
  | .signal d k c => (holdLater s d k c 0).report (contained d.val 0x06 2 x x)
  | .anchor d k c => linkDownHold s d k c x
  | .host key kind => s.complete key kind 0 .stackDown 0 []
  | .copy => s

/-- The launches whose PLAN flits a port holds, or whose flits for it wait in transmit buffers (R101). -/
def heldOrigins (s : State) (x : Nat) : List Origin :=
  let k := s.link x
  let waiting := (s.mesh.tx.filter fun e => (planEntry s (activeBank s) e.1).dsts.contains (16 + x)).flatMap (·.2)
  (k.buf.filterMap (·.origin) ++ k.planq.filterMap (·.origin) ++ waiting.filterMap (·.origin)).eraseDups

/-- The flits of a launch are discarded: its figure ends with the link-down error, its flits in the transmit buffers of the die
with it, or its Caller holds at the next figure it launches. -/
def flushOrigin (s : State) (x : Nat) (o : Origin) : State :=
  let running := match (s.caller o.die o.caller).run with
    | some r => decide (r.ctx = o.ctx ∧ r.launch = o.launch)
    | none => false
  let s := s.dropFlits o
  if running then linkDownHold s o.die o.caller o.ctx x
  else (holdLater s o.die o.caller o.ctx 0).report (contained o.die.val 0x06 2 x x)

/-- A port holds traffic (R342). -/
def holdsTraffic (s : State) (x : Nat) : Bool :=
  let k := s.link x
  !(k.buf = [] && k.reqq = [] && k.rspq = [] && k.planq = [] && k.held = [] && k.inbox = [] &&
    k.chans.all (fun e => e.2.rest = [] && e.2.chunks = [])) || s.remotes.any fun r => r.x.val = x

/-- A flush: GRACE ends, the held traffic ends as R343 lays down, and a new session begins with fresh state. -/
def flushPort (s : State) (x : Nat) : State :=
  let k := s.link x
  let rs := s.remotes.filter fun r => r.x.val = x
  let s₀ := if x = 15 ∧ s.x15Host then hostReset s x else s
  let s₁ := ({ s₀ with remotes := s₀.remotes.filter fun r => r.x.val ≠ x }.setBit (aLnkState x) 8 false).flag (aLnkState x) 9
  let s₂ := s₁.setLink x
    { freshLink x [] k with
      reqq := []
      rspq := []
      planq := []
      holds := false }
  let s₃ := rs.foldl (fun s r => flushRemote s x r.what) s₂
  let s₄ := (heldOrigins s x).foldl (fun s o => flushOrigin s x o) s₃
  let s₅ := (s₄.wr (aLnkSession x) (s.rd (aLnkSession x) + 1)).wr (aLnkPsession x) 0
  s₅.report (contained 26 0x31 2 x 0)

/-- The grace period has run out. -/
def graceOver (s : State) (x : Nat) : Bool :=
  let k := s.link x
  s.bit (aLnkState x) 8 && decide (k.graceFrom.toNat + k.graceMs * 1000000 ≤ s.ns)

/-- GRACE_EXPIRY: before the link is UP. -/
def execGraceExpiry (x : XPort) (s : State) : Host.Outcome State Fault Refusal :=
  .next (if graceOver s x then flushPort s x else s)

/-- DOWN: a cause of R341; a DOWN message is one. -/
def execDown (x : XPort) (cause : DownCause) (s : State) : Host.Outcome State Fault Refusal :=
  .next (linkDown (if cause = .received then lctlTake s x (kindIs 0x0B) else s) x cause)

/-! ### Negotiation (R344, R345, R358) -/

/-- An ADVERTISE as a message. -/
def advMsg (a : Advert) : List Byte :=
  let b2 := (if a.have_ then 1 else 0) + (if a.fecMin then 2 else 0) + 4 * a.modeMax.val + 16 * a.modNum.val
  padTo 32 ([0x07, 2, BitVec.ofNat 8 b2, 0] ++ padTo 4 (leBytes 3 a.txSet.toNat) ++ padTo 4 (leBytes 3 a.rxNrz.toNat) ++
    padTo 4 (leBytes 3 a.rxPam4.toNat) ++ leBytes 4 a.session.toNat ++ leBytes 4 a.held.toNat ++ leBytes 2 a.reqPool ++
    leBytes 2 a.rspPool)

/-- A CONFIRM as a message: mode, FEC and resume flag in byte 2, the maps in bytes 4 to 6 and 8 to 10 (log entry 25). -/
def confirmMsg (c : Confirm) : List Byte :=
  let b2 := c.mode.val + (if c.strong then 4 else 0) + (if c.resume then 8 else 0)
  padTo 16 ([0x08, 1, BitVec.ofNat 8 b2, 0] ++ padTo 4 (leBytes 3 c.txMap.toNat) ++ leBytes 3 c.rxMap.toNat)

/-- What this end advertises now. -/
def ownAdvert (s : State) (x : Nat) : Advert :=
  let k := s.link x
  { have_ := k.adv.isSome
    fecMin := s.bit (aLnkCfg x) 2
    modeMax := Fin.ofNat 4 (s.fld (aLnkCfg x) 1 0)
    modNum := Fin.ofNat 8 (ownModule s)
    txSet := (s.rd (aRngUse (96 + x))).truncate 18
    rxNrz := (s.port (96 + x)).nrz
    rxPam4 := (s.port (96 + x)).pam4
    session := s.rd (aLnkSession x)
    held := if k.holds then s.rd (aLnkPsession x) else 0
    reqPool := ownPool x 0
    rspPool := ownPool x 1 }

/-- ADVERTISE goes out, repeated until the partner has one of ours. -/
def sendAdvert (s : State) (x : Nat) : State := lctlSend (lctlAnswered s x (kindIs 0x07)) x (advMsg (ownAdvert s x)) true

/-- Negotiation begins, or begins again. -/
def startNegotiation (s : State) (x : Nat) : State :=
  let s₁ := dropStreams (s.setFld (aLnkState x) 2 0 lnkTrain) x
  let k := s₁.link x
  sendAdvert (s₁.setLink x
    { k with
      adv := none
      conf := none
      pconf := none
      lctl := []
      repeats := [] }) x

/-- A port may negotiate: not held down, not stopped by a wrong module number (R353, R358). -/
def mayNegotiate (s : State) (x : Nat) : Bool := lnkState s x = lnkDown && !s.bit (aLnkCtl x) 1 && !(s.link x).stopped

/-- MARGIN_TEST_DONE: an external port that has come up advertises its results (R276, R277). Its test waits for a handover of
LB6 (R32). -/
def execMarginTestDone (p : PortId) (nrz pam4 pam6 : Option (BitVec 18)) (s : State) : Host.Outcome State Fault Refusal :=
  let s₁ := marginDone s p nrz pam4 pam6
  .next (if isXPort p && handingOver s p then s
    else if isXPort p && (rngState s p = rngSearch || rngState s p = rngMargin) && rngState s₁ p = rngUp &&
      mayNegotiate s₁ (p - 96) then startNegotiation s₁ (p - 96) else s₁)

/-- Module number that a port expects of its partner, if it checks one (R357, R358). -/
def expectedPeer (s : State) (x : Nat) : Option Nat :=
  if x < 14 then some ((ownModule s + x / 2 + 1) % 8)
  else if x = 14 ∧ (s.bit aPrtCfg 31 ∨ mcEnabled s) then some (s.fld aPrtCfg 26 24)
  else none

/-- The selection from two advertisements, as the first's end names its directions (R345). -/
def selection (a b : Advert) (resume : Bool) : Option Confirm :=
  let tx (mode : Nat) : BitVec 18 := a.txSet &&& (if mode = 0 then b.rxNrz else b.rxPam4)
  let rx (mode : Nat) : BitVec 18 := b.txSet &&& (if mode = 0 then a.rxNrz else a.rxPam4)
  let rate (mode : Nat) : Nat := min (modeRate mode (bits18 (tx mode))) (modeRate mode (bits18 (rx mode)))
  let pam4 := 1 ≤ a.modeMax.val ∧ 1 ≤ b.modeMax.val
  let conf (mode : Fin 2) : Confirm :=
    { mode := mode
      strong := a.fecMin || b.fecMin
      txMap := lowest16 (tx mode)
      rxMap := lowest16 (rx mode)
      resume := resume }
  if pam4 ∧ rate 0 < rate 1 then some (conf 1) else if rate 0 = 0 then none else some (conf 0)

/-- Two CONFIRMs agree: each names the other's directions. -/
def confirmsAgree (a b : Confirm) : Bool :=
  a.mode = b.mode && a.strong = b.strong && a.txMap = b.rxMap && a.rxMap = b.txMap && a.resume = b.resume

/-- The first UP peer of X0 to X13 starts the measurement of offsets (R360, R386). -/
def meetPeer (s : State) (x : Nat) : State := if x < 14 ∧ s.fld aMmAlign 2 0 = 0 then s.setFld aMmAlign 2 0 1 else s

/-- The link comes UP with a selection: both maps in a new generation, and either the kept state or a fresh start. -/
def comeUp (s : State) (x : Nat) (a : Advert) (c : Confirm) : State :=
  let late := graceOver s x
  let s₀ := restartReceive (closeStream (if late then flushPort s x else s) x) x
  let resume := c.resume && !late
  let k := s₀.link x
  let pools := [a.reqPool, a.rspPool]
  let k₁ := if resume then replayAll k else freshLink x pools k
  let s₁ := s₀.setLink x
    { k₁ with
      adv := none
      pconf := none
      repeats := []
      farRx := if c.mode = 0 then a.rxNrz else a.rxPam4
      holds := true
      culprit := none
      timer := if k₁.buf.isEmpty then none else some s.stampNs }
  let w := (((s₁.setFld (aLnkWidth x) 21 20 c.mode.val).setBit (aLnkWidth x) 19 c.strong).setFld (aLnkWidth x) 17 0 c.txMap.toNat).setBit
    (aLnkWidth x) 18 (!txGen s x)
  let r := (w.setFld (aLnkRxmap x) 17 0 c.rxMap.toNat).setBit (aLnkRxmap x) 18 (!rxGen s x)
  let s₂ := (settleWidth r x).wr (aLnkPool x) (BitVec.ofNat 32 (a.rspPool * 65536 + a.reqPool))
  let s₃ := ((s₂.setFld (aLnkState x) 2 0 lnkUp).setBit (aLnkState x) 8 false).setFld (aLnkState x) 5 4 0
  let s₄ := abandonTurn ((s₃.wr (aLnkPsession x) a.session).setBit aMmPeer x true) (96 + x)
  let s₅ := s₄.setFld (aRngState (96 + x)) 11 10 c.mode.val
  let s₆ := if x = 15 ∧ s.x15Host then (if resume then hostLinkBack s₅ else hostLinkUp s₅) else s₅
  portNotice (meetPeer s₆ x) x

/-- The two CONFIRMs meet: UP, or negotiation again. -/
def settleConfirm (s : State) (x : Nat) : State :=
  let k := s.link x
  match k.adv, k.conf, k.pconf with
  | some a, some c, some p => if confirmsAgree c p then comeUp s x a c else startNegotiation s x
  | _, _, _ => s

/-- The partner's ADVERTISE has been received and it has ours: this end's selection goes out, if a mode qualifies. -/
def sendConfirm (s : State) (x : Nat) (a : Advert) : State :=
  let k := s.link x
  match selection (ownAdvert s x) a k.holds with
  | none => s
  | some c => settleConfirm (lctlSend (s.setLink x { k with conf := some c }) x (confirmMsg c) true) x

/-- A wrong module number: the link stays down and negotiation is not repeated (R358). -/
def miscabled (s : State) (x : Nat) : State :=
  let k := s.link x
  let s₁ := s.setLink x
    { k with
      stopped := true
      adv := none
      conf := none
      pconf := none
      lctl := []
      repeats := [] }
  ((s₁.setFld (aLnkState x) 2 0 lnkDown).flag aMmPeer (16 + x)).report (contained 26 0x31 2 x 1)

/-- State held for a partner session that is not the partner's present one, or that the partner does not hold for ours, is
given up: flushed at once where there is traffic (R342). -/
def matchSessions (s : State) (x : Nat) (a : Advert) : State :=
  let k := s.link x
  if k.holds && (a.session ≠ s.rd (aLnkPsession x) || a.held ≠ s.rd (aLnkSession x)) then
    if holdsTraffic s x then flushPort s x else s.setLink x { freshLink x [] k with holds := false }
  else s

/-- ADVERTISE. -/
def advertise (s : State) (x : Nat) (a : Advert) : State :=
  let s₁ := lctlTake s x fun m => m = advMsg a
  if lnkState s x ≠ lnkTrain then s₁
  else if (match expectedPeer s x with | some m => decide (m ≠ a.modNum.val) | none => false) then miscabled s₁ x
  else
    let s₂ := matchSessions s₁ x a
    let s₃ := s₂.setLink x { s₂.link x with adv := some a }
    let s₄ := lctlSend s₃ x (advMsg (ownAdvert s₃ x)) false
    if !a.have_ then s₄
    else
      let s₅ := lctlAnswered s₄ x (kindIs 0x07)
      if (s₅.link x).conf.isSome then s₅ else sendConfirm s₅ x a

def execAdvertise (x : XPort) (a : Advert) (s : State) : Host.Outcome State Fault Refusal := .next (advertise s x a)

/-- CONFIRM: one that repeats an agreement already reached is answered again. -/
def execConfirm (x : XPort) (cf : Confirm) (s : State) : Host.Outcome State Fault Refusal :=
  let s₁ := lctlTake s x fun m => m = confirmMsg cf
  let k := s₁.link x
  .next (if lnkState s x = lnkTrain then settleConfirm (s₁.setLink x { k with pconf := some cf }) x
    else if lnkState s x = lnkUp then (match k.conf with | some c => lctlSend s₁ x (confirmMsg c) false | none => s₁)
    else s₁)

/-- NEGOTIATION_RETRY: where no mode qualified. -/
def execNegotiationRetry (x : XPort) (s : State) : Host.Outcome State Fault Refusal :=
  .next (if lnkState s x = lnkTrain && (s.link x).conf.isNone then startNegotiation s x else s)

/-! ### What the partner reports (R267, R291) -/

def mfrepMsg (vals : List (Byte × Byte)) : List Byte := padTo 48 ([0x09, 3] ++ vals.flatMap fun v => [v.1, v.2])

/-- MFREP: E and MF of the partner's receivers, by lane. -/
def execMfrep (x : XPort) (vals : List (Byte × Byte)) (s : State) : Host.Outcome State Fault Refusal :=
  let s₁ := lctlTake s x fun m => m = mfrepMsg vals
  let q := s₁.port (96 + x.val)
  .next (s₁.setPort (96 + x.val)
    { q with
      farE := SMap.setList (fun _ => 0) [] 0 (vals.map fun v => v.1.toNat)
      farMf := SMap.setList (fun _ => 0) [] 0 (vals.map fun v => v.2.toNat) })

/-- CALDATA: the eye measurements of a lane, kept for the level-table fit of its turn. -/
def execCaldata (x : XPort) (l : LaneId) (mode : Fin 4) (levels : List (BitVec 16 × BitVec 16)) (s : State) :
    Host.Outcome State Fault Refusal :=
  let s₁ := lctlTake s x fun m => kindIs 0x0A m && fieldAt m 2 1 = l.val && fieldAt m 3 1 = mode.val
  let q := s₁.port (96 + x.val)
  .next (s₁.setPort (96 + x.val) { q with caldata := SMap.set (fun _ => []) q.caldata (4 * l.val + mode.val) levels })

end Sys2Proof.Machine
end

