-- ==== Sys2Proof/Machine/Light.lean ====
section
/-! DEFINITION. The light banks: line figures, drives, handovers, lost lines and the bank record (R287 to R301). -/
namespace Sys2Proof.Machine

def State.bank (s : State) (b : Nat) : Bank := SMap.get (fun _ => {}) s.light.banks b
def State.setBank (s : State) (b : Nat) (v : Bank) : State :=
  { s with light := { s.light with banks := SMap.set (fun _ => {}) s.light.banks b v } }

/-- A change of a source, a laser state or an assignment: the record is to be written (R290). -/
def recordDue (s : State) : State := { s with light := { s.light with dirty := true } }

/-- Codes of LB_LINE.STATE (R309). -/
def lineActive : Nat := 0
def lineRaising : Nat := 1
def lineHandover : Nat := 2
def lineLost : Nat := 3
def lineConstant : Nat := 4
def lineState (s : State) (b w : Nat) : Nat := s.fld (aLbLine b w) 31 29
def setLineState (s : State) (b w v : Nat) : State := s.setFld (aLbLine b w) 31 29 v
def lineSource (s : State) (b w : Nat) : Nat := s.fld (aLbLine b w) 28 27
def lineDrive (s : State) (b w : Nat) : Nat := s.fld (aLbLine b w) 8 0

/-- Codes of LB_SPARE.STATE (R310). -/
def spareIdle : Nat := 0
def spareTuning : Nat := 1
def spareActive : Nat := 2
def spareFailed : Nat := 3
def spareState (s : State) (b t : Nat) : Nat := s.fld (aLbSpare b t) 31 30

def setSpare (s : State) (b t st line : Nat) : State :=
  let s₁ := (s.setFld (aLbSpare b t) 31 30 st).setFld (aLbSpare b t) 4 0 line
  s₁.setFld (aLbState b) 9 8 (((List.range 2).filter fun i => s₁.fld (aLbSpare b i) 31 30 = spareIdle).length)

/-- The laser that a source code names on a line: F0-F17, 18 T0, 19 T1 (R309). -/
def sourceLaser (src w : Nat) : Option Nat := match src with | 0 => some w | 1 => some 18 | 2 => some 19 | _ => none

def int16 (s : State) (a hi lo : Nat) : Int := (BitVec.ofNat 16 (s.fld a hi lo)).toInt
def ofInt16 (v : Int) : Nat := (BitVec.ofInt 16 v).toNat

/-- Pm and Pref of the laser that sources a line, in 0.1 dBm. -/
def linePower (s : State) (b w : Nat) : Option (Int × Int) :=
  (sourceLaser (lineSource s b w) w).map fun i => (int16 s (aLbMon b i) 15 0, int16 s (aLbMon b i) 31 16)

def drvMax (s : State) (b : Nat) : Nat := s.fld (aLbCtl b) 8 0
def fadeEn (s : State) (b : Nat) : Bool := s.bit (aLbCtl b) 31

/-- Event 0x18: handover complete 0, spare failed 1, NOTLASER 2, constant power 3, line LOST 4, record invalid 5 (R476). -/
def bankEvent (b w kind : Nat) : FaultReport := corrected (16 + b) 0x18 (w + 32 * kind)

/-- The transmitting ports of a bank (R19). -/
def fedPorts (b : Nat) : List PortId := (List.finRange 132).filter fun p => bankOf p = b

/-- A fed port takes part in cut-outs, cut-ins and checks: it is up, and an external one is lit and its link is not down (R300). -/
def takesPart (s : State) (p : PortId) : Bool :=
  rngState s p = rngUp && (!isXPort p || (s.fld (aEyeState (p.val - 96)) 2 0 = 3 && lnkAlive s (p.val - 96)))

/-! ### Cut-out and cut-in (R32, R295) -/

/-- A port whose only way to keep its data lanes is a spare it does not have is narrowed until the cut-in: a corrected event,
whose kind R476 does not list (log entry 60). -/
def narrowedEvent (w : Nat) (s : State) (p : PortId) : State :=
  if s.bit (aRngUse p) w && usableLanes s p ≤ 16 then (s.report (laneEvent p w (s.free.toNat % 8))).tookFree else s

/-- A lane leaves the transmit set of a fed port. -/
def cutOut (w : Nat) (s : State) (p : PortId) : State := setUse (setRole s p true w roleDark) p true w false

/-- Calibration turns on the fed ports of a bank are abandoned (R32, R300). -/
def dropTurns (s : State) (b : Nat) : State := (fedPorts b).foldl (fun s (p : PortId) => abandonTurn s p) s

def cutIn (w : Nat) (s : State) (p : PortId) : State := setUse (setRole s p true w roleUsable) p true w true

/-- A port that failed the check: its lane waits for its next turn (R295). -/
def checkFailed (w : Nat) (s : State) (p : PortId) : State :=
  let q := s.port p
  ((setRole s p true w roleCal).setPort p { q with await := q.await ||| BitVec.ofNat 18 (2 ^ w) }).report (laneEvent p w 6)

/-- The ports whose lane of a line is out already, and the rest that take part. -/
def cutPorts (s : State) (b w : Nat) : List PortId × List PortId :=
  let out := SMap.get (fun _ => []) (s.bank b).early w
  (out, (fedPorts b).filter fun p => takesPart s p && !out.contains p && laneRole s p true w = roleUsable)

/-! ### Stage 2 (R294, R298) -/

/-- A waiting line below 32 has its lane cut out ahead of its turn (R294). -/
def cutEarly (s₀ : State) (b : Nat) (w : LaneId) : State :=
  let s := dropTurns s₀ b
  let (out, ports) := cutPorts s b w
  let s₁ := ports.foldl (fun s p => cutOut w.val (narrowedEvent w.val s p) p) s
  let q := s₁.bank b
  s₁.setBank b { q with early := SMap.set (fun _ => []) q.early w.val (out ++ ports) }

/-- A line reaches stage 2 and waits for its handover: behind one that runs, its lane is cut out at once below 32 (R294). -/
def stage2 (s : State) (b : Nat) (w : LaneId) : State :=
  if lineState s b w = lineHandover ∨ lineState s b w = lineLost then s
  else
    let s₁ := (setLineState s b w lineHandover).setBank b { s.bank b with waiting := (s.bank b).waiting ++ [w] }
    if (s.bank b).ho.isSome && !s.bit (aLbLine b w) 26 && decide (s.fld (aLbLine b w) 23 16 < 32) then cutEarly s₁ b w else s₁

/-- A line is LOST (R298): cut out of every fed port, its drive 0, no source. -/
def loseLine (s₀ : State) (b w : Nat) : State :=
  let s := dropTurns s₀ b
  let (_, ports) := cutPorts s b w
  let s₁ := ports.foldl (cutOut w) s
  let s₂ := (fedPorts b).foldl (fun s (p : PortId) => setRole s p true w roleDark) s₁
  let s₃ := (fedPorts b).foldl (fun s p => if takesPart s p then reportLane s p w 7 true false else s) s₂
  let s₄ := ((s₃.setFld (aLbLine b w) 8 0 0).setFld (aLbLine b w) 28 27 3).setFld (aLbLine b w) 31 29 lineLost
  let s₅ := (s₄.setFld (aLbState b) 20 16 (s₄.fld (aLbState b) 20 16 + 1)).setFld (aLbState b) 4 0 0x1F
  let q := s₅.bank b
  let s₆ := s₅.setBank b { q with ho := none, early := SMap.set (fun _ => []) q.early w [] }
  (recordDue s₆).report (bankEvent b w 4)

/-- The idle spare of lower number. -/
def idleSpare (s : State) (b : Nat) : Option (Fin 2) := (List.finRange 2).find? fun t => spareState s b t = spareIdle

/-- A spare starts to tune to a line whose lane is out of the ports named. -/
def tuneSpare (s : State) (b : Nat) (w : LaneId) (t : Fin 2) (ports : List PortId) : State :=
  let s₁ := (setSpare s b t spareTuning w.val).setFld (aLbState b) 4 0 w.val
  s₁.setBank b { s₁.bank b with ho := some { line := w, spare := t, ports := ports } }

/-- LB6 is off after a darkness that was not confirmed, until the power is cycled (R304). -/
def bankOff (s : State) (b : Nat) : Bool := b = 6 && s.light.lb6Off

/-- HANDOVER_START: the oldest line that waits, while no other handover of the bank runs. -/
def handoverStart (s : State) (b : Nat) (w : LaneId) : State :=
  let q := s.bank b
  if q.ho.isSome || q.waiting.head? ≠ some w || bankOff s b then s
  else
    let s₁ := dropTurns (s.setBank b { q with waiting := q.waiting.tail }) b
    match idleSpare s₁ b with
    | none => loseLine s₁ b w
    | some t =>
      let (out, ports) := cutPorts s₁ b w
      let s₂ := ports.foldl (fun s p => cutOut w.val (narrowedEvent w.val s p) p) s₁
      let r := s₂.bank b
      tuneSpare (s₂.setBank b { r with early := SMap.set (fun _ => []) r.early w.val [] }) b w t (out ++ ports)

def execHandoverStart (b : BankId) (w : LaneId) (s : State) : Host.Outcome State Fault Refusal := .next (handoverStart s b w)

/-- The handover of a bank moves from one stage to the next. -/
def advance (s : State) (b : Nat) (stage : Nat) (go : State → Handover → State) : State :=
  match (s.bank b).ho with
  | some h => if h.stage = stage then go (s.setBank b { s.bank b with ho := some { h with stage := stage + 1 } }) { h with stage := stage + 1 } else s
  | none => s

/-- SPARE_LOCKED. -/
def execSpareLocked (b : BankId) (s : State) : Host.Outcome State Fault Refusal := .next (advance s b 0 fun s _ => s)

/-- SHUTTER_OPEN. -/
def execShutterOpen (b : BankId) (s : State) : Host.Outcome State Fault Refusal := .next (advance s b 1 fun s _ => s)

/-- SOURCE_RAMP_DONE: the source's drive is 0 and the spare becomes the source; the drive at which the spare runs, up
to DRV_MAX, is not stated (log entry 2). -/
def execSourceRampDone (b : BankId) (s : State) : Host.Outcome State Fault Refusal :=
  .next (advance s b 2 fun s h =>
    let w := h.line.val
    let old := sourceLaser (lineSource s b w) w
    let q := s.bank b
    let s₁ := s.setBank b
      { q with failed := q.failed ||| (match old with | some i => BitVec.ofNat 20 (2 ^ i) | none => 0) }
    let s₂ := match lineSource s b w with
      | 1 => setSpare s₁ b 0 spareFailed 0x1F
      | 2 => setSpare s₁ b 1 spareFailed 0x1F
      | _ => s₁
    let drive := if bankOff s b then 0 else s₂.free.toNat % (drvMax s b + 1)
    ((s₂.setFld (aLbLine b w) 28 27 (1 + h.spare.val)).setFld (aLbLine b w) 8 0 drive).tookFree)

/-- The partner of an external port has light enough on a lane (R295): its E is 64 or more. -/
def farLight (s : State) (p : PortId) (w : Nat) : Bool := !isXPort p || 64 ≤ SMap.get (fun _ => 0) (s.port p).farE w

/-- HANDOVER_CHECK: the ports of the handover that passed, of those that still take part. -/
def execHandoverCheck (b : BankId) (passed : List PortId) (s : State) : Host.Outcome State Fault Refusal :=
  .next (advance s b 3 fun s h =>
    let ports := h.ports.filter fun p => takesPart s p
    let ok (p : PortId) : Bool := passed.contains p && farLight s p h.line.val
    let good := ports.filter ok
    let s₁ := (ports.filter fun p => !ok p).foldl (checkFailed h.line.val) s
    s₁.setBank b { s₁.bank b with ho := some { h with ports := ports, passed := good } })

/-- A port dropped from a handover resumes on the line as it then stands (R300). -/
def resumeLine (w : Nat) (s : State) (p : PortId) : State :=
  if laneRole s p true w = roleDark then setRole s p true w roleUsable else s

/-- HANDOVER_CUT_IN: the lane rejoins; the spare is ACTIVE, and the record is to be written. -/
def execHandoverCutIn (b : BankId) (s : State) : Host.Outcome State Fault Refusal :=
  .next (match (s.bank b).ho with
    | some h =>
      if h.stage ≠ 4 then s
      else
        let w := h.line.val
        let s₁ := (fedPorts b).foldl (resumeLine w) ((h.passed.filter fun p => takesPart s p).foldl (cutIn w) s)
        let s₂ := setLineState (setSpare s₁ b h.spare spareActive w) b w lineActive
        let s₃ := (s₂.setFld (aLbState b) 4 0 0x1F).count (aLbEvt b) 31 24 1
        (recordDue (s₃.setBank b { s₃.bank b with ho := none })).report (bankEvent b w 0)
    | none => s)

/-- SPARE_TUNE_TIMEOUT: the spare is FAILED; the other starts again if it is idle, else the line is LOST (R297). -/
def execSpareTuneTimeout (b : BankId) (s : State) : Host.Outcome State Fault Refusal :=
  .next (match (s.bank b).ho with
    | some h =>
      if h.stage ≠ 0 then s
      else
        let q := s.bank b
        let s₁ := (setSpare s b h.spare spareFailed 0x1F).setBank b
          { q with ho := none, failed := q.failed ||| BitVec.ofNat 20 (2 ^ (18 + h.spare.val)) }
        let s₂ := recordDue ((s₁.count (aLbEvt b) 23 16 1).report (bankEvent b h.line 1))
        match idleSpare s₂ b with
        | some t => tuneSpare s₂ b h.line t h.ports
        | none => loseLine s₂ b h.line
    | none => s)

/-! ### Power and margin (R289, R292, R293) -/

/-- PM_REPORT: Pm; a fall of 3 dB or more within 1 ms is an abrupt failure of the line that the laser sources. -/
def pmReport (s : State) (b : Nat) (i : Nat) (pm : Int) : State :=
  let q := s.bank b
  let past := (SMap.get (fun _ => []) q.recent i).filter fun x => s.ns ≤ x.1.toNat + 1000000
  let s₁ := (s.setBank b { q with recent := SMap.set (fun _ => []) q.recent i ((s.stampNs, pm) :: past) }).setFld (aLbMon b i) 15 0 (ofInt16 pm)
  let s₂ := if s.ns < q.prefUntil.toNat then s₁.setFld (aLbMon b i) 31 16 (ofInt16 pm) else s₁
  if past.any fun x => decide (30 ≤ x.2 - pm) then
    match (List.finRange 18).find? fun (w : LaneId) => sourceLaser (lineSource s b w) w = some i with
    | some w => stage2 s₂ b w
    | none => s₂
  else s₂

def execPmReport (b : BankId) (laser : Fin 20) (pm : Int) (s : State) : Host.Outcome State Fault Refusal := .next (pmReport s b laser pm)

/-- C and the symbols of the last 100 ms that receivers took from a port on a lane: counted for tensor-die and guest ports from what
bursts have brought, and as the far receiver reports them for link ends and reference positions (R291). -/
def sourceCounts (s : State) (w : Nat) (o : SmfObs) : Nat × Nat :=
  if o.port.val < 116 then
    let c := SMap.get (fun _ => {}) s.opt.fec (sourceBase o.port + w)
    (c.errs.length, c.recent s.ns)
  else (o.corr, o.syms)

/-- SMF of a port on a lane, once it qualifies: the lane is in its transmit set and it carried at least 2²⁰ symbols in the last
100 ms. For an external port it is the partner's MF (R291, R292). -/
def smf (s : State) (w : Nat) (o : SmfObs) : Option Nat :=
  let (corr, syms) := if isXPort o.port then (0, o.syms) else sourceCounts s w o
  if !s.bit (aRngUse o.port) w || syms < 2 ^ 20 then none
  else if isXPort o.port then some (SMap.get (fun _ => 0) (s.port o.port).farMf w)
  else some (min (eyeFigure (portMode s o.port) o.eye) (countFigure corr))

/-- A number put in its place of an ascending list. -/
def insertNat (x : Nat) : List Nat → List Nat
  | [] => [x]
  | y :: ys => if x ≤ y then x :: y :: ys else y :: insertNat x ys

/-- LMF: the median of four or more figures, the lower of the two middle ones; otherwise NONE (R292). -/
def lineFigure (fs : List Nat) : Option Nat :=
  if fs.length < 4 then none else (fs.foldr insertNat [])[(fs.length - 1) / 2]?

/-- The line runs at constant power (R292). -/
def goConstant (s : State) (b : Nat) (w : Nat) : State :=
  let s₁ := (s.setBit (aLbLine b w) 26 true).setFld (aLbLine b w) 23 16 0
  if lineState s b w = lineHandover ∨ lineState s b w = lineLost ∨ lineState s b w = lineConstant then s₁
  else (setLineState s₁ b w lineConstant).report (bankEvent b w 3)

/-- A loss of margin that lies outside the laser: at most one report per hour and line (R293). -/
def notLaser (s : State) (b w : Nat) : State :=
  let q := s.bank b
  let quiet := match SMap.get (fun _ => none) q.notAt w with
    | some t => decide (s.ns < t.toNat + 3600000000000)
    | none => false
  let s₁ := s.flag (aLbLine b w) 24
  if quiet then s₁
  else (s₁.setBank b { q with notAt := SMap.set (fun _ => none) q.notAt w (some s.stampNs) }).report (bankEvent b w 2)

/-- What a line figure brings about (R293, R294). -/
def fade (s : State) (b : Nat) (w : LaneId) (f : Nat) : State :=
  let st := lineState s b w
  if st = lineLost then s
  else if st = lineHandover then (if f < 32 && (s.bank b).waiting.contains w then cutEarly s b w else s)
  else
    let s₁ := if st = lineConstant then setLineState s b w lineActive else s
    if !fadeEn s b then s₁
    else if f < 64 || (f < 96 && decide (lineDrive s b w = drvMax s b)) then stage2 s₁ b w
    else match linePower s b w with
      | none => s₁
      | some (pm, ref) =>
        if f < 96 then (if pm ≤ ref - 5 then setLineState s₁ b w lineRaising else notLaser (setLineState s₁ b w lineActive) b w)
        else if f ≥ 112 || decide (ref ≤ pm) then setLineState s₁ b w lineActive
        else s₁

/-- LMF_UPDATE. -/
def execLmfUpdate (b : BankId) (w : LaneId) (obs : List SmfObs) (s : State) : Host.Outcome State Fault Refusal :=
  let fs := (obs.filter fun o => bankOf o.port = b.val).filterMap (smf s w)
  .next (match lineFigure fs with
    | none => goConstant s b w
    | some f => fade ((s.setBit (aLbLine b w) 26 false).setFld (aLbLine b w) 23 16 f) b w f)

/-- DRIVE_STEP: 5 mA, up to DRV_MAX, on a line that is raised (R293) or held at constant power (R292). -/
def driveStep (s : State) (b : Nat) (w : LaneId) : State :=
  let step (s : State) : State := s.setFld (aLbLine b w) 8 0 (min (lineDrive s b w + 5) (drvMax s b))
  if !fadeEn s b || bankOff s b then s
  else match linePower s b w with
    | none => s
    | some (pm, ref) =>
      if lineState s b w = lineRaising then
        if s.fld (aLbLine b w) 23 16 ≥ 112 || decide (ref ≤ pm) || decide (drvMax s b ≤ lineDrive s b w) then setLineState s b w lineActive
        else (step s).count (aLbEvt b) 15 0 1
      else if lineState s b w = lineConstant then
        if decide (drvMax s b ≤ lineDrive s b w) then (if pm ≤ ref - 10 then stage2 s b w else s)
        else if pm < ref - 2 then step s
        else s
      else s

def execDriveStep (b : BankId) (w : LaneId) (s : State) : Host.Outcome State Fault Refusal := .next (driveStep s b w)

/-! ### The bank record (R290) -/

def bankNow (s : State) (b : Nat) : BankData where
  lines := (List.range 18).map fun w => (lineSource s b w, lineDrive s b w)
  failed := (s.bank b).failed
  spares := (List.range 2).map fun t => (s.rd (aLbSpare b t)).toNat
  pref := (List.range 20).map fun i => s.fld (aLbMon b i) 31 16

/-- BANK_RECORD_WRITE: the copy that is not in use takes the present values. -/
def execBankRecordWrite (s : State) : Host.Outcome State Fault Refusal :=
  .next (if !s.light.dirty then s
    else
      let gen := s.light.gen + 1
      let c : BankCopy := { gen := gen, banks := (List.range 8).map (bankNow s) }
      let toB := !s.light.recB
      { s with
        eeprom := if toB then { s.eeprom with bankB := some c } else { s.eeprom with bankA := some c }
        light := { s.light with dirty := false, recB := toB, gen := gen } })

/-- The record that start-up uses: the valid copy with the higher GEN, and whether it is copy B. -/
def bankCopy (e : Eeprom) : Option (BankCopy × Bool) :=
  match e.bankA, e.bankB with
  | some a, some b => if a.gen.toNat < b.gen.toNat then some (b, true) else some (a, false)
  | some a, none => some (a, false)
  | none, some b => some (b, true)
  | none, none => none

/-- A bank as its record has it: a line without a source is LOST, a laser that failed stays off. -/
def lightBank (d : BankData) (s : State) (b : Nat) : State :=
  let s₁ := (List.range 18).foldl (fun s w =>
    let (src, drv) := (d.lines[w]?).getD (0, 250)
    s.wr (aLbLine b w) (BitVec.ofNat 32 (2 ^ 26 + (if bankOff s b then 0 else drv) + src * 2 ^ 27 + (if src = 3 then lineLost * 2 ^ 29 else 0)))) s
  let s₂ := (List.range 20).foldl (fun s i => s.wr (aLbMon b i) (BitVec.ofNat 32 ((d.pref[i]?).getD 0 * 65536))) s₁
  let s₃ := (List.range 2).foldl (fun s t => let v := (d.spares[t]?).getD 0x1F; setSpare s b t (v / 2 ^ 30) (v % 32)) s₂
  let lost := (d.lines.filter fun l => l.1 = 3).length
  let s₄ := (s₃.setFld (aLbState b) 20 16 lost).setFld (aLbState b) 4 0 0x1F
  let s₅ := s₄.setBank b { failed := d.failed }
  (fedPorts b).foldl (fun s (p : PortId) =>
    (List.range 18).foldl (fun s w => if ((d.lines[w]?).getD (0, 0)).1 = 3 then setRole s p true w roleDark else s) s) s₅

/-- What a bank starts with when neither copy is valid. -/
def freshBank : BankData where
  lines := List.replicate 18 (0, 250)
  failed := 0
  spares := [0x1F, 0x1F]
  pref := []

/-- The light supply at a start (R290): a spare that was tuning when the record was written
is idle again, unless it sources its line (R301). -/
def lightStart (s : State) : State :=
  let settled (d : BankData) (t v : Nat) : Nat :=
    if v / 2 ^ 30 ≠ spareTuning then v
    else if d.lines.any fun l => l.1 = t + 1 then spareActive * 2 ^ 30 + v % 32 else 0x1F
  let idle (d : BankData) : BankData := { d with spares := ((List.range 2).zip d.spares).map fun x => settled d x.1 x.2 }
  let off : LightSupply := { s.light with banks := [], dirty := false, lb6Dark := false, darkening := 0 }
  match bankCopy s.eeprom with
  | some (c, b) =>
    let s₁ := { s with light := { off with recB := b, gen := c.gen } }
    ((List.range 8).zip c.banks).foldl (fun s x => lightBank (idle x.2) s x.1) s₁
  | none =>
    let s₁ := (List.range 8).foldl (lightBank freshBank) { s with light := { off with recB := true, gen := 0 } }
    (List.range 8).foldl (fun s b =>
      (s.setBank b { s.bank b with prefUntil := s.stampNs + 100000000 }).report (bankEvent b 0 5)) s₁

end Sys2Proof.Machine
end

