-- ==== Sys2Proof/Machine/Eye.lean ====
section
/-! DEFINITION. Eye safety of the external ports: darkening, LOCKED_OFF, probes and the way to LIT (R302 to R306). -/
namespace Sys2Proof.Machine

/-- Codes of EYE_STATE.STATE (R311). -/
def eyeState (s : State) (x : Nat) : Nat := s.fld (aEyeState x) 2 0
def setEye (s : State) (x v : Nat) : State := s.setFld (aEyeState x) 2 0 v
def eyeDark : Nat := 1
def eyeArmed : Nat := 2
def eyeLit : Nat := 3
def eyeLocked : Nat := 4

/-- A LIT port darkens, its attenuating element blocking, and its link goes down; its lanes keep their roles (R303). -/
def darken (s : State) (x cause : Nat) : State :=
  if eyeState s x ≠ eyeLit then s
  else
    let s₁ := ((setEye s x eyeDark).setFld (aEyeState x) 7 4 cause).count (aEyeCnt x) 31 16 1
    setAtten (linkDown { s₁ with light := { s₁.light with darkening := s₁.light.darkening ||| BitVec.ofNat 16 (2 ^ x) } } x .dark)
      (96 + x) 0

/-- A port on its way to LIT goes back to DARK where a condition of R305 ends. -/
def disarm (s : State) (x : Nat) : State := if eyeState s x = eyeArmed then setEye s x eyeDark else s

/-- LOSS_OF_LIGHT. -/
def execLossOfLight (x : XPort) (s : State) : Host.Outcome State Fault Refusal := .next (darken s x 1)

/-- The eight ports of a ferrule (R572). -/
def ferrulePorts (f : Fin 2) : List Nat := (List.range 8).map fun i => 8 * f.val + i

/-- FERRULE_OPEN. -/
def execFerruleOpen (f : Fin 2) (s : State) : Host.Outcome State Fault Refusal :=
  .next ((ferrulePorts f).foldl (fun s x => disarm (darken (s.setBit (aEyeState x) 3 false) x 2) x) s)

/-- FERRULE_CLOSE. -/
def execFerruleClose (f : Fin 2) (s : State) : Host.Outcome State Fault Refusal :=
  .next ((ferrulePorts f).foldl (fun s x => s.setBit (aEyeState x) 3 true) s)

/-- The write of EYE_CTL (R303, R305, R311). -/
def writeEyeCtl (s : State) (x : Nat) (v : Word) : State :=
  let s₁ := s.setBit (aEyeCtl x) 0 (v.getLsbD 0)
  if v.getLsbD 0 then disarm (darken s₁ x 3) x else s₁

/-- LB6_LIGHT_LOSS. -/
def execLb6LightLoss (s : State) : Host.Outcome State Fault Refusal :=
  .next ((List.range 16).foldl (fun s x => disarm (darken s x 4) x) { s with light := { s.light with lb6Dark := true } })

/-- DARK_CONFIRM_TIMEOUT (R304): the hub takes every LB6 laser to zero drive; the port is LOCKED_OFF and the others go dark and
down. -/
def execDarkConfirmTimeout (x : XPort) (s : State) : Host.Outcome State Fault Refusal :=
  .next (if !s.light.darkening.getLsbD x.val then s
    else
      let s₁ := (List.range 18).foldl (fun s w => s.setFld (aLbLine 6 w) 8 0 0)
        { s with light := { s.light with lb6Off := true, darkening := s.light.darkening &&& ~~~(BitVec.ofNat 16 (2 ^ x.val)) } }
      let s₂ := (List.range 16).foldl (fun s y => disarm (darken s y 5) y) s₁
      ((setEye s₂ x eyeLocked).setFld (aEyeState x) 7 4 5).report (contained 26 0x31 2 x 2))

/-- A port may leave DARK: its ferrule closed, not forced dark, LB6 lit, and its peer populated (R305, R358). -/
def mayLight (s : State) (x : Nat) : Bool :=
  s.bit (aEyeState x) 3 && !s.bit (aEyeCtl x) 0 && !s.light.lb6Dark && !s.light.lb6Off && domOn s 19 &&
    (14 ≤ x || match expectedPeer s x with | some m => s.bit aMmCfg (8 + m) | none => true)

/-- EYE_PROBE: a dark port that may leave DARK probes. -/
def execEyeProbe (x : XPort) (s : State) : Host.Outcome State Fault Refusal :=
  .next (if eyeState s x = eyeDark && mayLight s x then s.count (aEyeCnt x) 15 0 1 else s)

/-- LIGHT_DETECTED: DARK to ARMED with a reply probe; ARMED to LIT, and ring search follows (R277, R305). -/
def execLightDetected (x : XPort) (s : State) : Host.Outcome State Fault Refusal :=
  let seen := { s with light := { s.light with darkening := s.light.darkening &&& ~~~(BitVec.ofNat 16 (2 ^ x.val)) } }
  .next (if !mayLight s x then s
    else if eyeState s x = eyeDark then (setEye seen x eyeArmed).count (aEyeCnt x) 15 0 1
    else if eyeState s x = eyeArmed then beginSearch (setAtten (setEye seen x eyeLit) (96 + x.val) 1) (96 + x.val)
    else s)

/-- ARMED_TIMEOUT. -/
def execArmedTimeout (x : XPort) (s : State) : Host.Outcome State Fault Refusal := .next (disarm s x)

end Sys2Proof.Machine
end

