-- ==== Sys2Proof/Machine/HostLink.lean ====
section
/-! DEFINITION. The Pofold link below its flits: training, electrical idle, equalisation, retrains and resets (R411 to R425). -/
namespace Sys2Proof.Machine

/-! ### Training blocks (R418) -/

/-- One symbol into the CRC-16 register, most significant bit first: polynomial 0x1021. -/
def crc16Sym (r x : BitVec 16) : BitVec 16 :=
  (List.range 16).foldl (fun r _ => if r.getLsbD 15 then (r <<< 1) ^^^ 0x1021#16 else r <<< 1) (r ^^^ x)

/-- CRC-16 of symbols: initial value 0xFFFF. -/
def crc16 (xs : List (BitVec 16)) : BitVec 16 := xs.foldl crc16Sym 0xFFFF#16

/-- Symbol `i` of a block, from 1. -/
def symAt (b : List (BitVec 16)) (i : Nat) : Nat := ((b[i - 1]?).getD 0).toNat

def blockPhase (b : List (BitVec 16)) : Nat := bits (symAt b 1) 7 4
def blockOk (b : List (BitVec 16)) : Bool := b.length = 15 && symAt b 15 = (crc16 (b.take 14)).toNat

/-- Codes of the phases. -/
def phDetect : Nat := 1
def phEq : Nat := 2
def phSelect : Nat := 3
def phConfirm : Nat := 4
def phReset : Nat := 5

def lanes8 (w : BitVec 8) : Nat := ((List.range 8).filter fun l => w.getLsbD l).length
def lane8 (l : Nat) : BitVec 8 := BitVec.ofNat 8 (2 ^ l)

def laneEfm (s : State) (l : Nat) : Nat := s.fld (aHlkLane l) 31 24
def tapPre (s : State) (l : Nat) : Nat := s.fld (aHlkLane l) 5 2
def tapPost (s : State) (l : Nat) : Nat := s.fld (aHlkLane l) 10 6

/-- Code of a lane count. -/
def countCode (n : Nat) : Nat := match n with | 1 => 0 | 2 => 1 | 4 => 2 | _ => 3

/-- The block that the module sends on a lane now. -/
def ownBlock (s : State) (l : Nat) : List (BitVec 16) :=
  let h := s.hlk
  let pass := if h.rate40 then h.pass40 else h.pass20
  let sel := match h.sel with | some (n, r) => countCode n * 256 + (if r then 1024 else 0) | none => 0
  let post := tapPost s l
  let pre := tapPre s l
  let session := (s.rd aHlkSession).toNat
  let syms := [l + h.phase * 16, h.aligned.toNat + ownRates s * 256 + (if h.retrain then 1024 else 0),
    SMap.get (fun _ => 0) h.asks l + laneEfm s l * 256, pre + post * 16 + (48 - pre - post) * 512, pass.toNat + sel,
    session % 65536, session / 65536, 64, 128, 256, 128, 0, 0, 0]
  let b := syms.map (BitVec.ofNat 16)
  b ++ [crc16 b]

/-! ### Taps (R413) -/

/-- A tap after a request: 0 hold, 1 increase, 2 decrease. -/
def stepTap (code v top : Nat) : Nat := if code = 1 then min (v + 1) top else if code = 2 then v - 1 else v

/-- A request for the pre and post taps of an own lane; main is what they leave of 48. -/
def applyTaps (s : State) (l pre post : Nat) : State :=
  let a := stepTap pre (tapPre s l) 8
  let b := stepTap post (tapPost s l) 16
  (((s.setFld (aHlkLane l) 5 2 a).setFld (aHlkLane l) 10 6 b).setFld (aHlkLane l) 16 11 (48 - a - b))

/-! ### Selection (R419) -/

/-- The largest of 8, 4, 2 and 1 for which lanes 0 to n - 1 pass; 0 where lane 0 does not. -/
def laneRun (w : BitVec 8) (most : Nat) : Nat :=
  (([8, 4, 2, 1].filter fun n => decide (n ≤ most)).find? fun n => (List.range n).all fun l => w.getLsbD l).getD 0

/-- The pair of lane count and rate: the highest product, 20 Gb/s on a tie. -/
def hlkSelect (s : State) : Option (Nat × Bool) :=
  let h := s.hlk
  let most := 2 ^ s.fld aHlkCfg 5 4
  let n20 := laneRun (h.pass20 &&& h.farPass20) most
  let n40 := if s.bit aHlkCfg 6 then laneRun (h.pass40 &&& h.farPass40) most else 0
  if n20 = 0 ∧ n40 = 0 then none else if n20 < 2 * n40 then some (n40, true) else some (n20, false)

/-- The selection that a block shows. -/
def blockSel (b : List (BitVec 16)) : Nat × Bool := (2 ^ bits (symAt b 5) 9 8, (symAt b 5).testBit 10)

/-- The link trains: TRAIN after the first alignment, RETRAIN where it retrains (R416). -/
def showTraining (s : State) : State := if s.hlk.retrain then s else s.setFld aHlkState 2 0 (if s.hlk.phase = phDetect then hlkDetect else hlkTrain)

/-- What a block says of the far end, and that its lane is aligned here. -/
def heardBlock (s : State) (l : Nat) (b : List (BitVec 16)) : State :=
  let h := s.hlk
  let pass : BitVec 8 := BitVec.ofNat 8 (bits (symAt b 5) 7 0)
  let shows := decide (phEq ≤ blockPhase b)
  { s with hlk :=
    { h with
      aligned := h.aligned ||| lane8 l
      far := BitVec.ofNat 8 (bits (symAt b 2) 7 0)
      farRates := bits (symAt b 2) 9 8
      farSession := BitVec.ofNat 32 (symAt b 6 + 65536 * symAt b 7)
      pools := (List.range 4).map fun c => symAt b (8 + c)
      farPass40 := if shows && h.rate40 then pass else h.farPass40
      farPass20 := if shows && !h.rate40 then pass else h.farPass20
      farSel := if blockPhase b = phConfirm then some (blockSel b) else h.farSel } }

/-- DETECT: lanes aligned at both ends, and EQ begins at 40 Gb/s where both offer it. -/
def detectStep (s : State) : State :=
  if s.hlk.aligned &&& s.hlk.far = 0 then s
  else trainAt s ((ownRates s).testBit 1 && s.hlk.farRates.testBit 1)

/-- EQ has ended at this end: every aligned lane has been judged (log entry 27). -/
def eqStep (s : State) : State :=
  let h := s.hlk
  if h.aligned &&& ~~~h.eqDone = 0 then { s with hlk := { h with phase := phSelect } } else s

/-- SELECT, once the far end selects too: EQ at 20 Gb/s while fewer than 8 lanes pass at 40, else the selection. -/
def selectStep (s : State) : State :=
  let h := s.hlk
  if h.rate40 && lanes8 (h.pass40 &&& h.farPass40) < 8 then trainAt s false
  else match hlkSelect s with
    | none => s
    | some p => { s with hlk := { h with sel := some p, phase := phConfirm } }

/-- A host-link reset (R424): every part of the module but the link runs on. -/
def hlkReset (s : State) (cause : Nat) : State :=
  if hlkState s = 0 then s
  else
    let s₁ := if s.x15Host then s.wr aHlkSession (s.rd aHlkSession + 1) else hostReset s pfl
    let s₂ := s₁.setLink pfl { freshLink pfl [] (s₁.link pfl) with lctl := [], lctlIn := [], repeats := [], phy := {} }
    let s₃ := (lanesIdle ((s₂.setFld aHlkState 2 0 hlkDetect).setFld aHlkState 4 3 0)).setFld aHlkState 19 16 cause
    ({ s₃ with hlk := { oldSession := s₃.hlk.oldSession, oldCounts := s₃.hlk.oldCounts, prefixes := s₃.hlk.prefixes } }.count aHlkErr1 7 0 1).report
      (contained 27 0x39 8 0 cause)

/-- TRAINING_BLOCK: one whose CRC fails is ignored; a RESET block resets the link, one with the retrain bit makes an UP link
retrain. -/
def trainingBlock (s : State) (l : Nat) (b : List (BitVec 16)) : State :=
  let ph := blockPhase b
  if !blockOk b || hlkState s = 0 || decide (ph < phDetect ∨ phReset < ph) then s
  else if ph = phReset then (if hlkState s = hlkDetect then s else hlkReset s 2)
  else if hlkState s = hlkUp && !(symAt b 2).testBit 10 then s
  else
    let s₀ := hlkStartRetrain s
    let s₁ := heardBlock s₀ l b
    let s₂ := if ph = phEq ∧ s₁.hlk.phase = phEq then applyTaps s₁ l (bits (symAt b 3) 1 0) (bits (symAt b 3) 3 2) else s₁
    showTraining (
      if s₂.hlk.phase = phDetect then detectStep s₂
      else if s₂.hlk.phase = phSelect ∧ phSelect ≤ ph then selectStep s₂
      else s₂)

def execTrainingBlock (lane : Fin 8) (syms : List (BitVec 16)) (s : State) : Host.Outcome State Fault Refusal :=
  .next (trainingBlock s lane syms)

/-- TRAINING_RESTART: from step 1, where no lane passes. -/
def execTrainingRestart (s : State) : Host.Outcome State Fault Refusal :=
  let h := s.hlk
  .next (if h.phase = phSelect && (hlkSelect s).isNone && !h.retrain then
      showTraining { s with hlk :=
        { h with
          phase := phDetect
          rate40 := false
          aligned := 0
          far := 0
          eqDone := 0
          pass20 := 0
          pass40 := 0
          farPass20 := 0
          farPass40 := 0
          requests := []
          asks := []
          sel := none
          farSel := none } }
    else s)

/-- LINK_UP (R425): both ends have confirmed one selection. After a retrain the buffers go on; otherwise the link starts fresh and
the notice and the return queue go out. -/
def linkUpNow (s : State) : State :=
  match s.hlk.sel with
  | none => s
  | some (n, r) =>
    if s.hlk.phase ≠ phConfirm ∨ s.hlk.farSel ≠ some (n, r) then s
    else
      let back := s.hlk.retrain
      let s₁ := ((s.setFld aHlkState 2 0 hlkUp).setFld aHlkState 11 8 n).setBit aHlkState 5 r
      let s₂ := (List.range 8).foldl (fun s l => s.setBit (aHlkLane l) 0 (decide (l < n))) s₁
      let k := s₂.link pfl
      let k₁ := if back then replayAll k else freshLink pfl s.hlk.pools k
      let s₃ := s₂.setLink pfl { k₁ with timer := if k₁.buf.isEmpty then none else some s.stampNs, phy := {} }
      let s₄ := { s₃ with hlk := { s₃.hlk with retrain := false, fails := 0, asked := [] } }
      let s₅ := if back then s₄ else lctlSend s₄ pfl (padTo 16 [0x20, 1, 2]) false
      if s.x15Host then s₅ else if back then hostLinkBack s₅ else hostLinkUp s₅

def execLinkUp (s : State) : Host.Outcome State Fault Refusal := .next (linkUpNow s)

/-! ### Retrains and resets (R411, R414, R423, R424) -/

/-- HLK_RETRAIN. -/
def execHlkRetrain (s : State) : Host.Outcome State Fault Refusal := .next (hlkStartRetrain s)

/-- HLK_RETRAIN_TIMEOUT: the third failure in a row takes the link down. -/
def execHlkRetrainTimeout (s : State) : Host.Outcome State Fault Refusal :=
  .next (if hlkState s ≠ hlkRetrain then s
    else
      let n := s.hlk.fails + 1
      if 3 ≤ n then hlkReset s 1
      else
        let s₁ := trainAt { s with hlk := { s.hlk with fails := n } } ((ownRates s).testBit 1 && s.hlk.farRates.testBit 1)
        (s₁.count aHlkErr1 15 8 1).report (corrected 27 0x38 0))

/-- KSYNC_LOSS, while the far end is not in electrical idle. -/
def execKsyncLoss (s : State) : Host.Outcome State Fault Refusal :=
  .next (if (hlkState s = hlkUp || hlkState s = hlkRetrain) && !s.bit aHlkState 3 then hlkReset s 4 else s)

/-- Codes of HLK_STATE.CAUSE (R436). -/
def hlkCauseCode : HlkCause → Nat
  | .retrains => 1 | .resetBlock => 2 | .ctlReset => 3 | .noKsync => 4

/-- HOST_LINK_RESET. -/
def execHostLinkReset (cause : HlkCause) (s : State) : Host.Outcome State Fault Refusal := .next (hlkReset s (hlkCauseCode cause))

/-- Four consecutive expected K.SYNC positions do not match (R411). -/
def syncsMissed (seen : List (BitVec 18)) : Bool := decide (4 ≤ seen.length) && seen.all fun x => !syncMatches x.toNat

/-- HLK_LANE_ALIGN_LOSS: of a lane in use the link retrains. -/
def execHlkLaneAlignLoss (c : LaneSyncs) (s : State) : Host.Outcome State Fault Refusal :=
  let s₁ := { s with hlk := { s.hlk with aligned := s.hlk.aligned &&& ~~~(lane8 c.lane) } }
  .next (if !syncsMissed c.seen then s else if s.bit (aHlkLane c.lane) 0 then hlkStartRetrain s₁ else s₁)

/-! ### Electrical idle (R414, R415) -/

/-- The ACK and the credit counters that flits have carried are the latest. -/
def toldAll (k : XLink) : Bool :=
  k.toldAck = some (k.exp - 1) && (List.range 4).all fun c => SMap.get (fun _ => none) k.told c = some (k.chan c).free

/-- Nothing but IDLE flits is left to send, every flit is acknowledged, and what arrived has been. -/
def nothingToSend (s : State) : Bool :=
  let k := s.link pfl
  toldAll k && k.buf.isEmpty && k.lctl.isEmpty && (s.x15Host || s.hostOut.isEmpty) && k.chans.all fun e => e.2.rest.isEmpty

/-- IDLE_ENTRY of the transmit direction. -/
def execIdleEntry (s : State) : Host.Outcome State Fault Refusal :=
  .next (if hlkState s = hlkUp && s.fld aHlkCfg 15 8 ≠ 0 && nothingToSend s then pushControl (s.setBit aHlkState 4 true) [kEidle]
    else s)

/-- The exit burst: 112 K.LOCK and 16 K.SYNC. -/
def exitBurst : List Nat := List.replicate 112 kLock ++ List.replicate 16 kSync

/-- IDLE_EXIT: the exit burst goes out, and the first flit begins with the next symbol. -/
def execIdleExit (s : State) : Host.Outcome State Fault Refusal :=
  .next (if s.bit aHlkState 4 then pushControl (s.setBit aHlkState 4 false) exitBurst else s)

/-- RX_ELECTRICAL_IDLE. -/
def execRxElectricalIdle (s : State) : Host.Outcome State Fault Refusal :=
  .next (if hlkState s = hlkUp then s.setBit aHlkState 3 true else s)

/-- Somewhere in a lane's symbols four consecutive ones match K.SYNC (R411). -/
def burstAligns (xs : List (BitVec 18)) : Bool :=
  (List.range xs.length).any fun i =>
    decide (i + 4 ≤ xs.length) && ((xs.drop i).take 4).all fun x => syncMatches x.toNat

/-- RX_EXIT_BURST: a receiver of which a lane in use is not aligned by the burst, or lies beyond the 4 ns of skew that it takes up,
needs retraining; on the others the scramblers start again. -/
def execRxExitBurst (b : ExitBurst) (s : State) : Host.Outcome State Fault Refusal :=
  let s₁ := (s.setBit aHlkState 3 false).setPhy pfl { s.phy pfl with rxScr := [], words := [] }
  let aligned := decide (b.skewPs ≤ 4000) &&
    (List.range (pflLanes s)).all fun l => b.lanes.any fun x => x.1.val = l && burstAligns x.2
  .next (if aligned then s₁ else hlkStartRetrain s₁)

/-! ### Margin (R413, R421) -/

/-- An EFM report in EQ judges one setting: the lane passes from 96 on, and has failed after 64 requests; otherwise the next
request, which the spec leaves open, goes out (log entry 27). -/
def eqReport (s : State) (l efm : Nat) : State :=
  let h := s.hlk
  if h.eqDone.getLsbD l then s
  else
    let n := SMap.get (fun _ => 0) h.requests l
    let done := decide (96 ≤ efm ∨ 64 ≤ n)
    let pass (w : BitVec 8) : BitVec 8 := if 96 ≤ efm then w ||| lane8 l else w &&& ~~~(lane8 l)
    let h₁ : Hlk :=
      { h with
        eqDone := if done then h.eqDone ||| lane8 l else h.eqDone
        requests := SMap.set (fun _ => 0) h.requests l (n + 1)
        asks := SMap.set (fun _ => 0) h.asks l (if done then 0 else s.free.toNat % 3 + 4 * (s.free.toNat / 3 % 3))
        pass40 := if done && h.rate40 then pass h.pass40 else h.pass40
        pass20 := if done && !h.rate40 then pass h.pass20 else h.pass20 }
    eqStep (if done then { s with hlk := h₁ } else { s with hlk := h₁ }.tookFree)

def hlinkMsg (sub lane v : Nat) : List Byte := padTo 16 [0x20, 1, BitVec.ofNat 8 sub, BitVec.ofNat 8 lane, BitVec.ofNat 8 v]

/-- The reverse of a request. -/
def reverseAsk (code : Nat) : Nat :=
  let r (c : Nat) : Nat := if c = 1 then 2 else if c = 2 then 1 else 0
  r (code % 4) + 4 * r (code / 4)

/-- While the link is UP: below 128, one request per lane every 10 ms; a request that made the lane worse is reversed, and none
follows for 1 s. Which step it asks for is open. -/
def upReport (s : State) (l efm : Nat) : State :=
  let (code, was, next) := SMap.get (fun _ => (0, 0, 0)) s.hlk.asked l
  let keep (s : State) (v : Nat × Nat × Nat) : State := { s with hlk := { s.hlk with asked := SMap.set (fun _ => (0, 0, 0)) s.hlk.asked l v } }
  if code ≠ 0 && efm < was then
    keep (lctlSend s pfl (hlinkMsg 1 l (reverseAsk code)) false) (0, 0, s.ns + 1000000000)
  else if efm < 128 && decide (next ≤ s.ns) then
    let ask := ([1, 2, 4, 8][s.free.toNat % 4]?).getD 1
    keep (lctlSend s pfl (hlinkMsg 1 l ask) false).tookFree (ask, efm, s.ns + 10000000)
  else keep s (0, 0, next)

/-- EFM_REPORT. -/
def execEfmReport (lane : Fin 8) (e : Byte) (heard : List (BitVec 18)) (s₀ : State) : Host.Outcome State Fault Refusal :=
  let s := tallyPrefixes s₀ lane (heard.map (·.toNat))
  let efm := min e.toNat (countFigure (SMap.get (fun _ => {}) s.hlk.prefixes lane).errs.length)
  let s₁ := s.setFld (aHlkLane lane) 31 24 efm
  .next (if hlkState s = hlkUp then
      (if s.bit (aHlkLane lane) 0 then upReport (lctlSend s₁ pfl (hlinkMsg 0 lane efm) false) lane efm else s₁)
    else if s.hlk.phase = phEq && (hlkState s = hlkTrain || hlkState s = hlkRetrain) then eqReport s₁ lane efm
    else s₁)

/-- TAP_REQUEST of the far end. -/
def execTapRequest (lane : Fin 8) (pre post : Fin 4) (s : State) : Host.Outcome State Fault Refusal :=
  .next (applyTaps (lctlTake s pfl fun m => m = hlinkMsg 1 lane (pre.val + 4 * post.val)) lane pre post)

/-- The link begins to train (R416, R424). -/
def hlkStart (s : State) : State :=
  let s₁ := (List.range 8).foldl (fun s l => s.wr (aHlkLane l) (BitVec.ofNat 32 (48 * 2 ^ 11))) s
  { s₁ with hlk := { oldSession := s.hlk.oldSession, oldCounts := s.hlk.oldCounts, prefixes := s.hlk.prefixes } }.setFld aHlkState 2 0 hlkDetect

end Sys2Proof.Machine
end

