-- ==== Sys2Proof/Machine/Context.lean ====
section
/-! DEFINITION. The context commands: LOAD to RESTORE, the stop of a context's Callers, and save images (R144 to R157, R184,
R365, R366, R372, R377, R398, R404, R513). -/
namespace Sys2Proof.Machine

/-! ### Slots -/

/-- A new occupant of a slot starts with no translations, no Caller state, no taint and counters of 0 (R184, R398, R527);
its messages travel on channel 0 (R432). -/
def freshSlot (s : State) (c : CtxId) : State :=
  let s₁ := tlbDiscard s fun x _ => decide (x = c)
  let s₂ := { s₁ with cctx := s₁.cctx.filter fun e => e.1 % 64 ≠ c.val }
  let s₃ := s₂.resetRegs (aDbgCtxcnt c 0 0 0) (aDbgCtxcnt c 0 0 0 + 0x3FF)
  let s₄ := if c.val < 32 then s₃.setBit aHubDettaint0 c.val false else s₃.setBit aHubDettaint1 (c.val - 32) false
  s₄.setCtx c { s₄.ctx c with chan := 0 }

/-- Every run-queue entry of a context is removed (R145); a free Caller whose queue is empty then has the value 0 (R133). -/
def dequeue (s : State) (c : CtxId) : State :=
  allCallers.foldl (fun s p =>
    let q := s.caller p.1 p.2
    if q.queue.contains c then
      let s₁ := s.setCaller p.1 p.2 { q with queue := q.queue.filter (· ≠ c) }
      if callerFree q then freeHeat s₁ p.1 p.2 else s₁
    else s) s

/-- An entry at the end of the run queue of every Caller of the die set, at most one per context (R147). -/
def enqueue (s : State) (c : CtxId) : State :=
  (ctxCallers s c).foldl (fun s p =>
    let q := s.caller p.1 p.2
    if q.queue.contains c then s else s.setCaller p.1 p.2 { q with queue := q.queue ++ [c] }) s

/-- A Caller of a context is at a boundary: it runs no figure, or one that waits for its anchor's Result (R148). -/
def atBoundary (q : Caller) : Bool :=
  match q.run with
  | none => true
  | some r => r.work = .result

/-- Every Caller that runs the context takes its boundary now or at its next one (R149). -/
def stopCallers (s : State) (c : CtxId) : State :=
  allCallers.foldl (fun s p =>
    if runs s p.1 p.2 c then
      let q := s.caller p.1 p.2
      if atBoundary q then takeBoundary s p.1 p.2
      else s.setCaller p.1 p.2 { q with stop := true }
    else s) (dequeue s c)

/-- The Callers that hold or have halted in a context let go of it: their registered waits are cancelled (R138). -/
def releaseCallers (s : State) (c : CtxId) : State :=
  allCallers.foldl (fun s p => if (s.caller p.1 p.2).ctx = some c then takeBoundary s p.1 p.2 else s) s

/-- Some Caller of the module holds at a figure of the context. -/
def someHeld (s : State) (c : CtxId) : Bool := allCallers.any fun p => (s.cc p.1 p.2 c).held

/-- A stop of the context's Callers is in progress. -/
def stopping (s : State) (c : CtxId) : Bool := !(s.ctx c).stops.isEmpty

/-- A stop in progress whose command will leave its context saving or its slot empty. -/
def leaving (s : State) (c : CtxId) : Bool := (s.ctx c).stops.any fun x => x.1 ≠ .preempt

/-- A command joins those that wait for the boundaries of a context's Callers (R145, R149). -/
def awaitStop (s : State) (c : CtxId) (stop : Stop) (key : CplKey) : State :=
  let s₁ := stopCallers s c
  s₁.setCtx c { s₁.ctx c with stops := (s₁.ctx c).stops ++ [(stop, key)] }

/-- Every die of the context's set is in service (R513). -/
def diesServe (s : State) (c : CtxId) : Bool :=
  (List.finRange 12).all fun d => !inDieSet s c d || (tdUp s d && s.fld (aTdState d) 2 0 = 2)

/-! ### LOAD, UNLOAD -/

def load (s : State) (h : HostHdr) (c : CtxId) : State :=
  if ctxState s c ≠ ctxEmpty then ctxDone s h kLoad c .state
  else ctxDone (setCtxState (freshSlot s c) c ctxIdle) h kLoad c .ok

def execLoad (h : HostHdr) (c : CtxId) (s : State) : Host.Outcome State Fault Refusal :=
  .next (hostCmd s h kLoad (.ctx c) fun s => load s h c)

/-- The slot is freed (R145): no Caller holds the context, no translation of it remains (R184). -/
def freeSlot (s : State) (c : CtxId) : State :=
  let s₁ := releaseCallers (dequeue s c) c
  setCtxState (tlbDiscard (s₁.setCtx c {}) fun x _ => decide (x = c)) c ctxEmpty

def unload (s : State) (h : HostHdr) (c : CtxId) : State :=
  let st := ctxState s c
  if !(st = ctxIdle || st = ctxReady || st = ctxHeld) then ctxDone s h kUnload c .state
  else if stopping s c || onCall s c ≠ 0 then awaitStop s c .unload (keyOf h)
  else ctxDone (freeSlot s c) h kUnload c .ok

def execUnload (h : HostHdr) (c : CtxId) (s : State) : Host.Outcome State Fault Refusal :=
  .next (hostCmd s h kUnload (.ctx c) fun s => unload s h c)

/-! ### START_STEP, RUN, PREEMPT, RESUME -/

/-- A Caller's state for the context at the start of a step: figure 0, the anchor beat, and its table as it stands (R126,
R146, R158). The slip counters go on. -/
def newStep (s : State) (c : CtxId) (anchor : BitVec 64) : State :=
  (ctxCallers s c).foldl (fun s p =>
    let s₁ := s.setCc p.1 p.2 c { (s.cc p.1 p.2 c) with
      pc := 0
      anchor := anchor
      waitReg := false
      xfer := none
      relaunch := false
      held := false
      figerr := 0
      xlf := none
      pend := none
      halted := false
      table := s.rd (aTdCtxtab p.1 c p.2)
      cmpSeq := 0 }
    let q := s₁.caller p.1 p.2
    if q.ctx = some c then s₁.setCaller p.1 p.2 { q with ctx := none, st := .idle, fetched := [], run := none } else s₁) s

/-- The step begins: anchor beat, run queues, and the channel of the context's messages (R146, R366, R430). -/
def beginStep (s : State) (h : HostHdr) (c : CtxId) (downbeat : BitVec 64) : State :=
  let s₁ := if downbeat ≠ 0 ∧ downbeat.toNat < s.beat.toNat then s.count aMmAlign 23 16 1 else s
  let s₂ := enqueue (newStep s₁ c (if downbeat = 0 then s.beat else downbeat)) c
  ctxDone (setCtxState (s₂.setCtx c { s₂.ctx c with chan := h.ch }) c ctxReady) h kStartStep c .ok

/-- START_STEP: refused while FENCED (R372), outside IDLE, or with a die out of service (R513); the input is placed as MEM_WR
places it (R427). -/
def startStep (s : State) (h : HostHdr) (c : CtxId) (downbeat : BitVec 64) (data : List Byte) : State :=
  let pa := fieldAt data 0 6
  let input := data.drop 8
  if prtState s = 4 then ctxDone s h kStartStep c .fenced
  else if data.length % 8 ≠ 0 ∨ data.length > 2048 then ctxDone s h kStartStep c .format
  else if ctxState s c ≠ ctxIdle || stopping s c || !diesServe s c then ctxDone s h kStartStep c .state
  else if data = [] then beginStep s h c downbeat
  else match (if fieldAt data 6 2 ≠ 0 then some Status.address else hostWriteBad s pa input) with
    | some st => ctxDone s h kStartStep c st
    | none =>
      match memWrite s masterHost pa input with
      | (s₁, .ok) => beginStep s₁ h c downbeat
      | (s₁, st) => ctxDone s₁ h kStartStep c st

def execStartStep (h : HostHdr) (c : CtxId) (downbeat : BitVec 64) (data : List Byte) (s : State) :
    Host.Outcome State Fault Refusal :=
  .next (hostCmd s h kStartStep (.ctx c) fun s =>
    if prtState s = 5 then { s with syncHeld := s.syncHeld ++ [{ h := h, c := c, downbeat := downbeat, data := data }] }
    else startStep s h c downbeat data)

def run (s : State) (h : HostHdr) (c : CtxId) : State :=
  if ctxState s c ≠ ctxReady || leaving s c || !diesServe s c then ctxDone s h kRun c .state
  else ctxDone (enqueue s c) h kRun c .ok

def execRun (h : HostHdr) (c : CtxId) (s : State) : Host.Outcome State Fault Refusal :=
  .next (hostCmd s h kRun (.ctx c) fun s => run s h c)

/-- PREEMPT is completed when every Caller of the context has taken its boundary (R149, R427). -/
def preempt (s : State) (h : HostHdr) (c : CtxId) : State :=
  if ctxState s c ≠ ctxRunning then ctxDone s h kPreempt c .state
  else awaitStop s c .preempt (keyOf h)

def execPreempt (h : HostHdr) (c : CtxId) (s : State) : Host.Outcome State Fault Refusal :=
  .next (hostCmd s h kPreempt (.ctx c) fun s => preempt s h c)

/-- The held figures of a context will relaunch (R151): its Callers hold no longer and are free of it. -/
def unhold (s : State) (c : CtxId) : State :=
  allCallers.foldl (fun s p =>
    let cc := s.cc p.1 p.2 c
    if cc.held then
      let s₁ := s.setCc p.1 p.2 c { cc with held := false, figerr := 0 }
      if (s₁.caller p.1 p.2).ctx = some c then takeBoundary s₁ p.1 p.2 else s₁
    else s) s

def resume (s : State) (h : HostHdr) (c : CtxId) : State :=
  if ctxState s c ≠ ctxHeld || !diesServe s c then ctxDone s h kResume c .state
  else ctxDone (setCtxState (unhold s c) c ctxReady) h kResume c .ok

def execResume (h : HostHdr) (c : CtxId) (s : State) : Host.Outcome State Fault Refusal :=
  .next (hostCmd s h kResume (.ctx c) fun s => resume s h c)

/-! ### Save images (R152, R153) -/

/-- SRAM bytes that a window value holds; 0 for one that is empty. -/
def windowBytes (w : Word) : Nat :=
  if w.getLsbD 15 && getF w 10 0 ≤ getF w 26 16 then (getF w 26 16 + 1 - getF w 10 0) * 65536 else 0

def windowBase (w : Word) : Nat := getF w 10 0 * 65536

/-- Fixed part of a die section: 64 bytes and four Caller records. -/
def sectionHead : Nat := 64 + 4 * 128

def up64 (n : Nat) : Nat := (n + 63) / 64 * 64

/-- Objects that a context owns (R144). -/
def ownedObjects (s : State) (c : CtxId) : List ObjId := (List.finRange 4096).filter fun o => syncAllowed s o c

/-- Dies of a set. -/
def diesOf (set : Nat) : List DieId := (List.finRange 12).filter fun d => set.testBit d.val

/-- Die sections with their offsets from the half base and their lengths, in ascending die number, and the end. -/
def placeSections (s : State) (c : CtxId) : List DieId → Nat → List (DieId × Nat × Nat) × Nat
  | [], off => ([], off)
  | d :: ds, off =>
    let len := sectionHead + windowBytes (ctxWindow s d c)
    let (r, e) := placeSections s c ds (off + up64 len)
    ((d, off, len) :: r, e)

/-- Size of a context's image. -/
def imageSize (s : State) (c : CtxId) : Nat :=
  (placeSections s c (diesOf (s.rd (aHubCtxcfg c)).toNat) 256).2 + up64 (8 * (ownedObjects s c).length)

/-- A Caller record (log entry 15): PC, flags, anchor, slip counters, sequence, in-flight segment, fault record, descriptor. -/
def callerRecord (cc : CallerCtx) : List Byte :=
  let flag (b : Bool) (i : Nat) : Nat := if b then 2 ^ i else 0
  let x := cc.xfer.getD ⟨[], 0⟩
  let f := cc.xlf.getD ⟨0, 0, 0, 0⟩
  padTo 128 (leBytes 3 cc.pc.toNat ++
    leBytes 1 (flag cc.waitReg 0 + flag cc.xfer.isSome 1 + flag cc.relaunch 2 + flag cc.held 3 + flag cc.halted 4 +
      flag cc.xlf.isSome 5 + flag cc.pend.isSome 6) ++
    leBytes 1 (cc.figerr.val + 16 * (cc.pend.getD 0).val) ++ leBytes 3 0 ++ leBytes 8 cc.anchor.toNat ++
    leBytes 4 cc.slip.last ++ leBytes 4 cc.slip.max ++ leBytes 4 cc.slip.sum ++
    leBytes 4 (cc.slip.wait + cc.slip.ack * 1024 + cc.slip.floor * 1048576) ++ leBytes 2 cc.slip.fetch ++
    leBytes 2 cc.cmpSeq.toNat ++ leBytes 4 x.seg ++ leBytes 8 0 ++
    leBytes 4 f.w0.toNat ++ leBytes 4 f.w1.toNat ++ leBytes 4 f.w2.toNat ++ leBytes 4 f.w3.toNat ++ padTo 64 x.desc)

/-- The Caller state that a record holds, with the table of the slot it is restored into. -/
def recordCaller (b : List Byte) (table : Word) : CallerCtx :=
  let fl := fieldAt b 3 1
  let e := fieldAt b 4 1
  { pc := BitVec.ofNat 24 (fieldAt b 0 3)
    anchor := BitVec.ofNat 64 (fieldAt b 8 8)
    slip :=
      { last := fieldAt b 16 4
        max := fieldAt b 20 4
        sum := fieldAt b 24 4
        wait := bits (fieldAt b 28 4) 9 0
        ack := bits (fieldAt b 28 4) 19 10
        floor := bits (fieldAt b 28 4) 29 20
        fetch := fieldAt b 32 2 % 1024 }
    waitReg := false
    xfer := if fl.testBit 1 then some { desc := (b.drop 64).take 64, seg := fieldAt b 36 4 } else none
    relaunch := fl.testBit 2
    held := fl.testBit 3
    figerr := Fin.ofNat 16 (e % 16)
    xlf := if fl.testBit 5 then
        some ⟨BitVec.ofNat 32 (fieldAt b 48 4), BitVec.ofNat 32 (fieldAt b 52 4), BitVec.ofNat 32 (fieldAt b 56 4),
          BitVec.ofNat 32 (fieldAt b 60 4)⟩
      else none
    pend := if fl.testBit 6 then some (Fin.ofNat 16 (e / 16)) else none
    halted := fl.testBit 4
    table := table
    cmpSeq := BitVec.ofNat 16 (fieldAt b 34 2) }

/-- A sync record (R153). -/
def syncRecord (s : State) (o : ObjId) : List Byte :=
  leBytes 8 (o.val + (if syncSat s o then 2 ^ 12 else 0) + (syncVal s o).toNat * 2 ^ 32)

/-- The body is written into a half: die sections, then sync records. -/
def writeBody (s : State) (c : CtxId) (half : Nat) : State :=
  let (secs, e) := placeSections s c (diesOf (s.rd (aHubCtxcfg c)).toNat) 256
  let s₁ := secs.foldl (fun s (d, off, len) =>
    let win := ctxWindow s d c
    let head := padTo 64 (leBytes 4 win.toNat ++ (List.range 4).flatMap fun k => leBytes 4 (s.rd (aTdCtxtab d c k)).toNat) ++
      (List.finRange 4).flatMap fun k => callerRecord (s.cc d k c)
    (s.write (half + off) head).copy (sramPa d (windowBase win)) (half + off + sectionHead) (len - sectionHead)) s
  let objs := ownedObjects s c
  s₁.write (half + e) (padTo (up64 (8 * objs.length)) (objs.flatMap fun o => syncRecord s o))

/-- The header of R153, with its two checks, from the body as it stands in the half. -/
def header (s : State) (c : CtxId) (half : Nat) (gen : Nat) (prior : Nat) : List Byte :=
  let set := (s.rd (aHubCtxcfg c)).toNat % 4096
  let (secs, e) := placeSections s c (diesOf set) 256
  let table := (List.finRange 12).flatMap fun d =>
    match secs.find? fun x => x.1 = d with
    | some (_, off, len) => leBytes 4 (off / 64) ++ leBytes 4 len
    | none => leBytes 8 0
  let body := s.bytes (half + 256) (imageSize s c - 256)
  let b := padTo 184 (leBytes 4 0x53564B39 ++ leBytes 4 1 ++ leBytes 8 gen ++ leBytes 8 (s.rd64 (aHubCtxstep0 c)).toNat ++
    leBytes 8 (s.rd64 (aHubCtxrseed0 c)).toNat ++ leBytes 8 (s.rd64 (aHubCtxsseed0 c)).toNat ++
    leBytes 8 (s.rd64 (aHubCtxptr0 c)).toNat ++ leBytes 2 set ++ leBytes 1 prior ++ leBytes 1 0 ++ leBytes 4 (e / 64) ++
    leBytes 4 (ownedObjects s c).length ++ leBytes 4 0 ++ table) ++ leBytes 8 (crc64 body).toNat
  let b := padTo 248 b
  b ++ leBytes 4 (crc32 b).toNat ++ leBytes 4 0x434F4D54

/-! ### Save areas -/

/-- Stack and offset of a save area that keeps R152's rules. -/
def areaOk (s : State) (base : BitVec 48) (half : Nat) : Bool :=
  base.toNat % 0x200000 = 0 && half % 0x200000 = 0 && half ≥ 0x200000 &&
    match place (ownModule s) base.toNat with
    | .stack st off => off + 2 * half ≤ 0x900000000 && mUp s st
    | _ => false

/-- Section offsets, lengths and the sync section of a header lie within a half; the end of the image. -/
def headerEnd (b : List Byte) (size : Nat) : Option Nat :=
  let secs := (diesOf (fieldAt b 48 2 % 4096)).map fun d => (fieldAt b (64 + 8 * d.val) 4 * 64, fieldAt b (68 + 8 * d.val) 4)
  let sync := (fieldAt b 52 4 * 64, 8 * fieldAt b 56 4)
  let e := (sync :: secs).foldl (fun m p => max m (p.1 + up64 p.2)) 256
  if e ≤ size then some e else none

/-- Generation of the half at a local address, if it is committed (R155); a half that meets POISON or STACK_DOWN is not
(R202). -/
def committedGen (s : State) (half size : Nat) : State × Option Nat :=
  match memRead s masterHub half 256 with
  | (s₁, .ok) =>
    let b := s₁.bytes half 256
    if fieldAt b 252 4 ≠ 0x434F4D54 ∨ fieldAt b 248 4 ≠ (crc32 (b.take 248)).toNat then (s₁, none)
    else match headerEnd b size with
      | none => (s₁, none)
      | some e =>
        match memRead s₁ masterHub (half + 256) (e - 256) with
        | (s₂, .ok) =>
          (s₂, if fieldAt b 184 8 = (crc64 (s₂.bytes (half + 256) (e - 256))).toNat then some (fieldAt b 8 8) else none)
        | (s₂, _) => (s₂, none)
  | (s₁, _) => (s₁, none)

/-- Generations of halves A and B of an area. -/
def areaGens (s : State) (base : BitVec 48) (half : Nat) : State × Option Nat × Option Nat :=
  let a := localPa (ownModule s) base.toNat
  let (s₁, ga) := committedGen s a half
  let (s₂, gb) := committedGen s₁ (a + half) half
  (s₂, ga, gb)

/-! ### SAVE (R152, R154, R156, R404) -/

/-- A flit of a context's figures remains in a transmit buffer or a replay store (R404). -/
def sentFlits (s : State) (c : CtxId) : Bool :=
  let own (o : Option Origin) : Bool := match o with | some x => x.ctx = c | none => false
  (s.mesh.tx.any fun e => e.2.any fun f => own f.origin) || (s.mesh.txPairs.any fun t => t.store.any fun f => own f.flit.origin) ||
    s.links.any fun e => (e.2.planq.any fun f => own f.origin) || e.2.buf.any fun f => own f.origin

/-- A PARTIAL flit of the context's entries waits in a landing buffer of its dies (R404). -/
def partialsWait (s : State) (c : CtxId) : Bool :=
  s.mesh.landing.any fun e => (e.1 < 96 && inDieSet s c (Fin.ofNat 12 (e.1 / 8))) && e.2.any fun f =>
    f.waiting && (planEntry s (activeBank s) f.flit.entry.toNat).ctx = c.val

/-- Requests of a context's save or restore leave the ledger (R31). -/
def dropAsks (s : State) (c : CtxId) : State :=
  { s with mesh := { s.mesh with queue := s.mesh.queue.filter fun q => q.use ≠ .ctx c } }

/-- A save ends: the context returns to the state it had, and the host is told. -/
def endSave (s₀ : State) (c : CtxId) (op : SaveOp) (key : CplKey) (st : Status) : State :=
  let s := dropAsks s₀ c
  let s₁ := setCtxState (s.setCtx c { s.ctx c with save := none }) c op.prior.val
  match st with
  | .ok => (s₁.wr64 (aHubCtxsave0 c) (op.half.zeroExtend 64)).complete key kSave c .ok op.half []
  | _ => s₁.complete key kSave c st 0 []

/-- SAVING begins (R152), and the image's lines are asked of the ledger in class 5 (R31): the target is the half that does not hold the highest generation. Once no flit of the context
remains, waiting partials end the save, otherwise step 1 of R154 is made. -/
def beginSave (s : State) (c : CtxId) (base : BitVec 48) (half : Nat) (key : CplKey) : State :=
  let (s₁, ga, gb) := areaGens s base half
  let toB : Bool := match ga, gb with
    | some a, some b => a ≥ b
    | some _, none => true
    | none, _ => false
  let op : SaveOp :=
    { half := if toB then base + BitVec.ofNat 48 half else base
      gen := BitVec.ofNat 64 (max (ga.getD 0) (gb.getD 0) + 1)
      prior := Fin.ofNat 8 (ctxState s₁ c)
      zeroed := !sentFlits s₁ c }
  let s₂ := setCtxState (s₁.setCtx c { s₁.ctx c with save := some (op, key) }) c ctxSaving
  let s₃ := s₂.askLines hubRequester true (.ctx c) (localPa (ownModule s) op.half.toNat) (imageSize s₂ c)
  if !op.zeroed then s₃
  else if partialsWait s₂ c then endSave s₃ c op key .saveErr
  else s₃.zero (localPa (ownModule s) op.half.toNat + 192) 64

/-- SAVE (R145, R152). -/
def save (s : State) (h : HostHdr) (c : CtxId) (base : BitVec 48) (data : List Byte) : State :=
  let half := fieldAt data 0 8
  let st := ctxState s c
  if data.length ≠ 8 then ctxDone s h kSave c .format
  else if !(st = ctxIdle || st = ctxReady || st = ctxHeld || st = ctxRunning) then ctxDone s h kSave c .state
  else if !areaOk s base half then ctxDone s h kSave c .address
  else if imageSize s c > half then ctxDone s h kSave c .saveErr
  else if st = ctxRunning || stopping s c || onCall s c ≠ 0 then awaitStop s c (.save base half) (keyOf h)
  else beginSave (dequeue s c) c base half (keyOf h)

def execSave (h : HostHdr) (c : CtxId) (base : BitVec 48) (data : List Byte) (s : State) : Host.Outcome State Fault Refusal :=
  .next (hostCmd s h kSave (.ctx c) fun s => save s h c base data)

/-- The movers read every window of the image (R156); a double-bit error stops the save. -/
def readWindows (s : State) (c : CtxId) : State × Bool :=
  (diesOf (s.rd (aHubCtxcfg c)).toNat).foldl (fun (p : State × Bool) d =>
    let win := ctxWindow p.1 d c
    if p.2 && windowBytes win ≠ 0 then
      let (s₁, st) := memRead p.1 masterHub (sramPa d (windowBase win)) (windowBytes win)
      (s₁, st = .ok)
    else p) (s, true)

/-- SAVE_COMMIT (R154, R156): the last write is acknowledged, which needs every line granted (R31), or the save ends with an
error. -/
def saveCommit (s : State) (c : CtxId) (acked : Bool) : State :=
  match (s.ctx c).save with
  | none => s
  | some (op, key) =>
    if sentFlits s c || (acked && ctxLinesLeft s c) then s
    else if !op.zeroed && partialsWait s c then endSave s c op key .saveErr
    else
      let half := localPa (ownModule s) op.half.toNat
      let s₁ := s.zero (half + 192) 64
      match readWindows s₁ c with
      | (s₂, false) => endSave s₂ c op key .saveErr
      | (s₂, true) =>
        if !acked || memWritable s₂ masterHub half 256 ≠ .ok then endSave s₂ c op key .saveErr
        else
          let s₃ := writeBody s₂ c half
          endSave (s₃.write half (header s₃ c half op.gen.toNat op.prior.val)) c op key .ok

def execSaveCommit (c : CtxId) (acked : Bool) (s : State) : Host.Outcome State Fault Refusal := .next (saveCommit s c acked)

/-! ### RESTORE (R155, R202) -/

/-- Every die of the image's set has a window in the slot at least as large as its section's image. -/
def windowsFit (s : State) (c : CtxId) (b : List Byte) : Bool :=
  (diesOf (fieldAt b 48 2 % 4096)).all fun d =>
    let w := windowBytes (ctxWindow s d c)
    w ≠ 0 && fieldAt b (68 + 8 * d.val) 4 - sectionHead ≤ w

def restore (s : State) (h : HostHdr) (c : CtxId) (base : BitVec 48) (data : List Byte) : State :=
  let half := fieldAt data 0 8
  if data.length ≠ 8 then ctxDone s h kRestore c .format
  else if ctxState s c ≠ ctxEmpty then ctxDone s h kRestore c .state
  else if !areaOk s base half then ctxDone s h kRestore c .address
  else
    let (s₁, ga, gb) := areaGens s base half
    let b := base + BitVec.ofNat 48 half
    let pick : Option (BitVec 48 × BitVec 48) := match ga, gb with
      | some x, some y => some (if x ≥ y then (base, b) else (b, base))
      | some _, none => some (base, b)
      | none, some _ => some (b, base)
      | none, none => none
    match pick with
    | none => ctxDone s₁ h kRestore c .imageErr
    | some (p, o) =>
      let head := s₁.bytes (localPa (ownModule s) p.toNat) 256
      if windowsFit s₁ c head then
        let s₂ := tlbDiscard s₁ fun x _ => decide (x = c)
        let op : RestoreOp := { half := p, other := o, size := half, dies := BitVec.ofNat 12 (fieldAt head 48 2) }
        (setCtxState (s₂.setCtx c { s₂.ctx c with restore := some (op, keyOf h) }) c ctxRestoring).askLines hubRequester true
          (.ctx c) (localPa (ownModule s) p.toNat) half
      else ctxDone s₁ h kRestore c .imageErr

def execRestore (h : HostHdr) (c : CtxId) (base : BitVec 48) (data : List Byte) (s : State) : Host.Outcome State Fault Refusal :=
  .next (hostCmd s h kRestore (.ctx c) fun s => restore s h c base data)

/-- HUB_XLF of a Caller shows a fault that still holds the Caller, in the slot the record names. -/
def xlfStands (s : State) (d : DieId) (k : CallerId) : Bool :=
  let a := aHubXlf1 (callerNo d k)
  s.bit a 31 && (s.cc d k (Fin.ofNat 64 (s.fld a 21 16))).xlf.isSome

/-- A Caller's saved fault record is shown again (R203), unless the one shown still holds the Caller. -/
def showXlf (s : State) (d : DieId) (k : CallerId) (c : CtxId) (x : Option XlfRec) : State :=
  match x with
  | none => s
  | some f =>
    let i := callerNo d k
    if xlfStands s d k && s.fld (aHubXlf1 i) 21 16 ≠ c.val then s
    else (((s.wr (aHubXlf0 i) f.w0).capture (aHubXlf1 i) (setF f.w1 21 16 c.val)).wr (aHubXlf2 i) f.w2).wr (aHubXlf3 i) f.w3

/-- The images, Caller states, sync records and context registers of a half are written. -/
def writeRestored (s : State) (c : CtxId) (half : Nat) (b : List Byte) : State :=
  let set := fieldAt b 48 2 % 4096
  let s₁ := (diesOf set).foldl (fun s d =>
    let off := half + fieldAt b (64 + 8 * d.val) 4 * 64
    let len := fieldAt b (68 + 8 * d.val) 4
    let s₁ := s.copy (off + sectionHead) (sramPa d (windowBase (ctxWindow s d c))) (len - sectionHead)
    (List.finRange 4).foldl (fun s k =>
      let cc := recordCaller (s.bytes (off + 64 + 128 * k.val) 128) (s.rd (aTdCtxtab d c k))
      showXlf (s.setCc d k c cc) d k c cc.xlf) s₁) s
  let sync := half + fieldAt b 52 4 * 64
  let s₂ := (List.range (fieldAt b 56 4)).foldl (fun s i =>
    let r := s.bytes (sync + 8 * i) 8
    let o : ObjId := Fin.ofNat 4096 (fieldAt r 0 2 % 4096)
    setSyncVal (s.setBit (aHubSynccfg o) 14 ((fieldAt r 0 2).testBit 12)) o (BitVec.ofNat 20 (fieldAt r 4 4 % 2 ^ 20))) s₁
  ((((s₂.setFld (aHubCtxcfg c) 11 0 set).wr64 (aHubCtxstep0 c) (BitVec.ofNat 64 (fieldAt b 16 8))).wr64 (aHubCtxrseed0 c)
    (BitVec.ofNat 64 (fieldAt b 24 8))).wr64 (aHubCtxsseed0 c) (BitVec.ofNat 64 (fieldAt b 32 8))).wr64 (aHubCtxptr0 c)
      (BitVec.ofNat 64 (fieldAt b 40 8))

/-- The slot takes the image of the first of these halves that is committed when it is read and that the slot's windows hold
(R155, R202): the state of byte 50, or EMPTY with no such half. -/
def restoreFrom (s : State) (c : CtxId) (key : CplKey) (size : Nat) : List (BitVec 48) → State
  | [] => (setCtxState s c ctxEmpty).complete key kRestore c .imageErr 0 []
  | base :: rest =>
    let half := localPa (ownModule s) base.toNat
    match committedGen s half size with
    | (s₁, none) => restoreFrom s₁ c key size rest
    | (s₁, some _) =>
      let b := s₁.bytes half 256
      if windowsFit s₁ c b then
        (setCtxState (writeRestored (freshSlot s₁ c) c half b) c (fieldAt b 50 1 % 8)).complete key kRestore c .ok 0 []
      else restoreFrom s₁ c key size []

/-- RESTORE_COMMIT (R155, R202), once the ledger has granted the lines of the half (R31): a half that is no longer committed when it is read gives way to the other. -/
def restoreCommit (s : State) (c : CtxId) : State :=
  match (s.ctx c).restore with
  | none => s
  | some (op, key) =>
    if ctxLinesLeft s c then s else restoreFrom (s.setCtx c { s.ctx c with restore := none }) c key op.size [op.half, op.other]

def execRestoreCommit (c : CtxId) (s : State) : Host.Outcome State Fault Refusal := .next (restoreCommit s c)

/-! ### PREEMPT_COMPLETE (R145, R149, R201) -/

/-- A command that waited for the Callers' boundaries goes on, in the state that those before it have left (R145, R157). -/
def endStop (s : State) (c : CtxId) (stop : Stop) (key : CplKey) : State :=
  let st := ctxState s c
  let stays := st = ctxIdle || st = ctxReady || st = ctxHeld
  match stop with
  | .preempt => s.complete key kPreempt c .ok 0 []
  | .save base half => if stays then beginSave (dequeue s c) c base half key else s.complete key kSave c .state 0 []
  | .unload => if stays then (freeSlot s c).complete key kUnload c .ok 0 [] else s.complete key kUnload c .state 0 []

/-- The last Caller has stored its state: a PREEMPT completes, with the context HELD when a Caller of it holds, a SAVE
begins, or an UNLOAD frees the slot. -/
def preemptComplete (s : State) (c : CtxId) : State :=
  let stops := (s.ctx c).stops
  if stops = [] ∨ onCall s c ≠ 0 then s
  else
    let s₁ := s.setCtx c { s.ctx c with stops := [] }
    let s₂ := if ctxState s₁ c = ctxRunning then setCtxState s₁ c (if someHeld s₁ c then ctxHeld else ctxReady) else s₁
    stops.foldl (fun s x => endStop s c x.1 x.2) s₂

def execPreemptComplete (c : CtxId) (s : State) : Host.Outcome State Fault Refusal := .next (preemptComplete s c)

end Sys2Proof.Machine
end

