-- ==== Sys2Proof/Machine/Multi.lean ====
section
/-! DEFINITION. Timestamps between modules, alignment of the beat counters, and the sync pins (R360 to R364). -/
namespace Sys2Proof.Machine

/-- A timestamp of the present beat, in 1/16 beat (R361). -/
def stamp (s : State) (frac : Fin 16) : Nat := (s.beat.toNat * 16 + frac.val) % 2 ^ 64

/-- PROBE_TIMER: once every 1 ms on a port that is UP. -/
def execProbeTimer (x : XPort) (frac : Fin 16) (s : State) : Host.Outcome State Fault Refusal :=
  .next (if lnkState s x ≠ lnkUp then s
    else
      let k := s.link x
      let n := k.probeNum + 1
      let t := stamp s frac
      let s₁ := s.setLink x { k with probeNum := n, probes := k.probes ++ [{ num := n, t1 := BitVec.ofNat 64 t }] }
      lctlSend s₁ x (beatMsg s 0 (leBytes 8 t ++ leBytes 4 n.toNat)) false)

/-- The BEAT messages of a subtype that have arrived (R360). -/
def isBeat (sub : Nat) (m : List Byte) : Bool := kindIs 0x0C m && fieldAt m 2 1 = sub

/-- PROBE: answered by ECHO. -/
def execProbe (x : XPort) (t1 : BitVec 64) (num : Word) (frac2 frac3 : Fin 16) (s : State) : Host.Outcome State Fault Refusal :=
  let s₁ := lctlTake s x fun m => isBeat 0 m && fieldAt m 4 8 = t1.toNat && fieldAt m 12 4 = num.toNat
  .next (if lnkState s x ≠ lnkUp then s₁
    else
      let body := leBytes 8 t1.toNat ++ leBytes 8 (stamp s frac2) ++ leBytes 8 (stamp s frac3) ++ leBytes 4 num.toNat
      lctlSend s₁ x (beatMsg s 1 body) false)

def insertInt (x : Int) : List Int → List Int
  | [] => [x]
  | y :: ys => if x ≤ y then x :: y :: ys else y :: insertInt x ys

/-- The two middle values of a list, the same one twice for an odd length. -/
def middles (xs : List Int) : Int × Int :=
  let v := xs.foldr insertInt []
  ((v[(v.length - 1) / 2]?).getD 0, (v[v.length / 2]?).getD 0)

/-- The median of sums that are twice a measurement, in 1/16 beat. Where it falls between two steps, or between two middle
values, the spec does not say which it is: a free value within them. -/
def medianOf (s : State) (sums : List Int) : State × Int :=
  let (a, b) := middles sums
  let lo := a.fdiv 2
  let hi := -((-b).fdiv 2)
  if lo = hi then (s, lo) else (s.tookFree, lo + (s.free.toNat % (hi - lo + 1).toNat : Nat))

def sat (lo hi x : Int) : Int := max lo (min hi x)

/-- Every context is EMPTY: the counter may step (R362). -/
def allEmpty (s : State) : Bool := (List.finRange 64).all fun c => ctxState s c = ctxEmpty

/-- The counter may step now: during start-up, or as the host asked, with every context EMPTY (R362); a running module never steps
(R363). -/
def mayStep (s : State) : Bool := allEmpty s && (s.boot.phase = 8 || s.boot.realign)

/-- Codes of MM_ALIGN.STATE (R386). -/
def alignState (s : State) : Nat := s.fld aMmAlign 2 0
def setAlign (s : State) (v : Nat) : State := s.setFld aMmAlign 2 0 v

/-- A new offset of a peer: AHEAD for a peer more than 1 beat ahead when the module may not step, LOST for one of an aligned
module that has moved more than 2 beats out (R363). -/
def judgeOffset (s : State) (x : Nat) (first : Bool) (θ : Int) : State :=
  if 14 ≤ x then s
  else if !first && alignState s = 2 && decide (32 < θ.natAbs) then (setAlign s 4).report (corrected 26 0x30 x)
  else if decide (16 < θ) && !mayStep s && alignState s ≠ 3 && alignState s ≠ 4 then (setAlign s 3).report (corrected 26 0x30 x)
  else s

/-- ECHO: delay and offset of one exchange join the last eight of the port. -/
def echo (s : State) (x : Nat) (t1 t2 t3 : BitVec 64) (num : Word) (frac4 : Fin 16) : State :=
  let k := s.link x
  match k.probes.find? fun p => p.num = num ∧ p.t1 = t1 with
  | none => s
  | some p =>
    let t4 : Int := stamp s frac4
    let d : Int := (t4 - t1.toNat) - ((t3.toNat : Int) - t2.toNat)
    let θ : Int := ((t2.toNat : Int) - t1.toNat) + (t3.toNat - t4)
    let meas := ((d, θ) :: k.meas).take 8
    let s₁ := s.setLink x { k with probes := k.probes.erase p, meas := meas }
    let (s₂, dm) := medianOf s₁ (meas.map (·.1))
    let (s₃, om) := medianOf s₂ (meas.map (·.2))
    let s₄ := (s₃.setFld (aMmLink x) 31 16 (sat 0 0xFFFF dm).toNat).setFld (aMmLink x) 15 0 (BitVec.ofInt 16 (sat (-0x8000) 0x7FFF om)).toNat
    judgeOffset (settleMaxoff s₄) x k.meas.isEmpty om

def execEcho (x : XPort) (t1 t2 t3 : BitVec 64) (num : Word) (frac4 : Fin 16) (s : State) : Host.Outcome State Fault Refusal :=
  .next (echo (lctlTake s x fun m => isBeat 1 m && fieldAt m 28 4 = num.toNat && fieldAt m 4 8 = t1.toNat) x t1 t2 t3 num frac4)

/-- ECHO_TIMEOUT: the probe is dropped without error. -/
def execEchoTimeout (x : XPort) (num : Word) (s : State) : Host.Outcome State Fault Refusal :=
  let k := s.link x
  .next (s.setLink x { k with probes := k.probes.filter fun p => p.num ≠ num })

/-- The offsets of the UP peers, once each has been measured: after a step for 8 ms. -/
def peerOffsets (s : State) : Option (List Int) :=
  let ps := upPeers s
  let soon : Bool := match s.boot.stepped with | some t => decide (s.ns < t + 8000000) | none => false
  if soon ∨ ps = [] ∨ ps.any (fun x => (s.link x).meas.isEmpty) then none else some (ps.map (offsetOf s))

/-- The peers are measured anew. -/
def forgetOffsets (s : State) : State :=
  (upPeers s).foldl (fun s x => s.setLink x { s.link x with meas := [], probes := [] }) s

/-- BEAT_STEP: the counter steps to the peer furthest ahead while that is more than 0.5 beat; the peers are measured again.
Otherwise the module is ALIGNED. -/
def beatStep (s : State) : State :=
  if alignState s ≠ 1 then s
  else match peerOffsets s with
    | none => s
    | some os =>
      let θ := os.foldl max (os.headD 0)
      if θ ≤ 8 then setAlign { s with boot := { s.boot with realign := false, stepped := none } } 2
      else if !mayStep s then s
      else
        let s₁ := forgetOffsets s
        { s₁ with
          beat := s₁.beat + BitVec.ofInt 64 ((θ + 8).fdiv 16)
          boot := { s₁.boot with stepped := some s.ns } }

def execBeatStep (s : State) : Host.Outcome State Fault Refusal := .next (beatStep s)

/-- REALIGN: alignment starts again (R362). -/
def startAlign (s : State) : State :=
  forgetOffsets (setAlign { s with boot := { s.boot with realign := true, stepped := none } } (if upPeers s = [] then 0 else 1))

/-- SYNC_OUT_PULSE: for 8 beats from each multiple of 2²⁰ (R364). -/
def execSyncOutPulse (s : State) : Host.Outcome State Fault Refusal :=
  .next (if s.bit aMmSync 31 && decide (s.beat.toNat % 2 ^ 20 = 0) then { s with pins := { s.pins with syncOut := some s.beat } } else s)

/-- SYNC_IN_EDGE: the signed distance from the nearest multiple of 2²⁰ beats; one that the 16 bits cannot hold reads as a free
value. -/
def execSyncInEdge (frac : Fin 16) (s : State) : Host.Outcome State Fault Refusal :=
  let r : Int := stamp s frac % 2 ^ 24
  let d := if r ≥ 2 ^ 23 then r - 2 ^ 24 else r
  let s₁ := s.setBit aMmSync 30 true
  .next (if -0x8000 ≤ d ∧ d ≤ 0x7FFF then s₁.setFld aMmSync 15 0 (BitVec.ofInt 16 d).toNat
    else (s₁.setFld aMmSync 15 0 (s.free.toNat % 65536)).tookFree)

end Sys2Proof.Machine
end

