-- ==== Sys2Proof/Machine/Partner.lean ====
section
/-! DEFINITION. Partner mode and mirror-compare: the lease, planned and unplanned transfers of the lead, rejoin, and the
messages of a comparison (R369 to R384). -/
namespace Sys2Proof.Machine

/-! ### States (R371, R389) -/

def prtDisabled : Nat := 0
def prtPairing : Nat := 1
def prtLead : Nat := 2
def prtShadow : Nat := 3
def prtFenced : Nat := 4
def prtSyncing : Nat := 5

/-- NOTIFY source 4: the state entered and its cause (R432). -/
def setPrt (s : State) (st cause : Nat) : State :=
  ((s.setFld aPrtState 2 0 st).setFld aPrtState 19 16 cause).notify 4 (BitVec.ofNat 56 (st + 256 * cause)) []

def State.setLease (s : State) (l : Lease) : State := { s with lease := l }

/-- A BEAT message to the partner; with `rep` it is repeated until its answer arrives (R336, R360). -/
def toPartner (s : State) (sub : Nat) (body : List Byte) (rep : Bool) : State := lctlSend s partnerPort (beatMsg s sub body) rep

def fromPartner (s : State) (sub : Nat) (lease : Word) : State :=
  lctlTake s partnerPort fun m => isBeat sub m && fieldAt m 4 4 = lease.toNat

/-- Results held back are handed to the host, oldest first (R374). -/
def emitHeld (s : State) : State := s.heldResults.foldl (fun s x => s.toHost x.2) { s with heldResults := [] }

/-- The module takes the lead: it holds the token and emits. -/
def becomeLead (s : State) (cause : Nat) : State :=
  let s₁ := s.setLease
    { s.lease with
      sent := []
      grantSent := none
      granted := none
      refusing := false
      yieldSent := none
      yieldTake := none
      asked := false }
  setPrt s₁ prtLead cause

/-! ### The lease (R372 to R375) -/

/-- RENEW_TIMER: the lead renews with the next number, a RENEW not answered being counted; the primary of a pair renews with
number 0 until it is granted (log entry 26). A lead that has sent YIELD renews no more (R376). -/
def renewTimer (s : State) : State :=
  let l := s.lease
  let lead := prtState s = prtLead && l.yieldSent.isNone
  let pair := prtState s = prtPairing && s.bit aPrtCfg 30 && lnkState s partnerPort = lnkUp
  if !lead && !pair then s
  else
    let num := if lead then l.num + 1 else 0
    let missed := lead && !l.sent.isEmpty
    let s₁ := if missed then s.count aPrtCnt 23 16 1 else s
    let s₂ := (lctlAnswered s₁ partnerPort (isBeat 2)).setLease { l with num := num, sent := (l.sent ++ [(num, s.beat)]).drop (l.sent.length - 7) }
    toPartner s₂ 2 (leBytes 4 num.toNat ++ leBytes 8 s.beat.toNat) true

def execRenewTimer (s : State) : Host.Outcome State Fault Refusal := .next (renewTimer s)

def grantMsg (s : State) (lease : Word) : State := toPartner s 3 (leBytes 4 lease.toNat) false
def refuseMsg (s : State) (lease : Word) : State := toPartner s 4 (leBytes 4 lease.toNat) false

/-- The RENEW is granted: from this beat the module may not take over within 2,200,000 beats. A number left out is a renewal
lost (R372, R378). -/
def grantRenew (s : State) (lease : Word) : State :=
  let l := s.lease
  let lost := decide (l.num.toNat + 1 < lease.toNat) && l.granted.isSome
  grantMsg (s.setLease { l with num := lease, granted := some s.beat, unclean := if lost then s.stampNs else l.unclean }) lease

/-- RENEW received. -/
def renew (s : State) (lease : Word) : State :=
  let l := s.lease
  let st := prtState s
  if st = prtPairing then
    (if lease = 0 ∧ !s.bit aPrtCfg 30 then grantRenew (setPrt s prtShadow 1) lease else s)
  else if st = prtShadow then (if l.refusing ∨ lease.toNat < l.num.toNat then refuseMsg s lease else grantRenew s lease)
  else if st = prtSyncing then grantRenew s lease
  else if st = prtLead then refuseMsg s lease
  else s

def execRenew (lease : Word) (sent : BitVec 64) (s : State) : Host.Outcome State Fault Refusal :=
  .next (renew (lctlTake s partnerPort fun m => isBeat 2 m && fieldAt m 4 4 = lease.toNat && fieldAt m 8 8 = sent.toNat) lease)

/-- The lead's cutoff has passed (R372). -/
def cutoffPassed (s : State) : Bool :=
  match s.lease.grantSent with | some b => decide (b.toNat + 1950000 ≤ s.beat.toNat) | none => false

/-- GRANT: the cutoff moves to 1,950,000 beats after the RENEW it answers; one that arrives after the cutoff is ignored. -/
def grant (s : State) (lease : Word) : State :=
  let l := s.lease
  match l.sent.find? fun x => x.1 = lease with
  | none => s
  | some (_, b) =>
    let s₁ := (lctlAnswered s partnerPort fun m => isBeat 2 m && fieldAt m 4 4 = lease.toNat).setLease
      { l with
        sent := l.sent.filter fun x => decide (lease.toNat < x.1.toNat)
        grantSent := some b }
    if prtState s = prtLead then (if cutoffPassed s then s else s₁)
    else if prtState s = prtPairing && s.bit aPrtCfg 30 then
      let s₂ := becomeLead s₁ 1
      s₂.setLease { s₂.lease with grantSent := some b }
    else s

def execGrant (lease : Word) (s : State) : Host.Outcome State Fault Refusal := .next (grant (fromPartner s 3 lease) lease)

/-- REFUSE: the RENEW it answers is not granted. -/
def execRefuse (lease : Word) (s : State) : Host.Outcome State Fault Refusal :=
  let s₁ := fromPartner s 4 lease
  let l := s₁.lease
  .next (if l.sent.any fun x => x.1 = lease then
      ((lctlAnswered s₁ partnerPort fun m => isBeat 2 m && fieldAt m 4 4 = lease.toNat).setLease
        { l with sent := l.sent.filter fun x => x.1 ≠ lease }).count aPrtCnt 23 16 1
    else s₁)

/-- The preempts of a lead that is fenced have no command to complete. -/
def noKey : CplKey := { ch := 0, tag := 0, nocpl := true, x15 := false }

def preemptAll (s : State) : State :=
  (List.finRange 64).foldl (fun s c =>
    if ctxState s c = ctxRunning && !stopping s c then awaitStop s c .preempt noKey else s) s

/-- LEAD_CUTOFF: the lead stops emitting in the beat in which its cutoff passes, is FENCED and preempts its contexts. -/
def execLeadCutoff (s : State) : Host.Outcome State Fault Refusal :=
  .next (if prtState s = prtLead && cutoffPassed s then preemptAll (setPrt s prtFenced 2) else s)

/-- GROUPFAIL goes to each member of the group, on the lower port of its pair (R359, R375). -/
def sendGroupfail (s : State) : State :=
  (List.range 8).foldl (fun s m =>
    if s.bit aPrtCfg (16 + m) && m ≠ ownModule s then lctlSend s (peerPort s m) (beatMsg s 7 []) false else s) s

/-- TAKEOVER: 2,200,000 beats after the last RENEW granted. A module that still copies its state is FENCED instead (R377). -/
def takeover (s : State) : State :=
  let due := match s.lease.granted with | some b => decide (b.toNat + 2200000 ≤ s.beat.toNat) | none => false
  if !due then s
  else if prtState s = prtShadow then
    sendGroupfail (emitHeld ((becomeLead s (if s.lease.refusing then 4 else 3)).count aPrtCnt 31 24 1))
  else if prtState s = prtSyncing then setPrt s prtFenced 2
  else s

def execTakeover (s : State) : Host.Outcome State Fault Refusal := .next (takeover s)

/-- GROUPFAIL from a member of the group: a shadow refuses every later RENEW. -/
def execGroupfail (x : XPort) (m : ModId) (s : State) : Host.Outcome State Fault Refusal :=
  let s₁ := lctlTake s x fun b => isBeat 7 b && fieldAt b 3 1 = m.val
  .next (if prtState s = prtShadow && s.bit aPrtCfg (16 + m.val) then s₁.setLease { s₁.lease with refusing := true } else s₁)

/-! ### Planned transfer (R376, R378) -/

/-- The lead sends YIELD with D = 1,000,000 beats. -/
def sendYield (s : State) : State :=
  if prtState s ≠ prtLead ∨ s.lease.yieldSent.isSome then s
  else
    let l := s.lease
    toPartner ((lctlAnswered s partnerPort (isBeat 2)).setLease { l with yieldSent := some s.beat }) 5
      (leBytes 4 l.num.toNat ++ leBytes 4 1000000) false

/-- YIELD received: the shadow takes the lead D + 200,000 of its beats later. -/
def execYield (lease d : Word) (s : State) : Host.Outcome State Fault Refusal :=
  let s₁ := lctlTake s partnerPort fun m => isBeat 5 m && fieldAt m 4 4 = lease.toNat && fieldAt m 8 4 = d.toNat
  .next (if prtState s = prtShadow then
      s₁.setLease { s₁.lease with yieldTake := some (s.beat + BitVec.ofNat 64 (d.toNat + 200000)) }
    else s₁)

/-- YIELD_STOP: D beats after sending, the lead stops emitting and is shadow. -/
def execYieldStop (s : State) : Host.Outcome State Fault Refusal :=
  .next (match s.lease.yieldSent with
    | some b =>
      if prtState s = prtLead && decide (b.toNat + 1000000 ≤ s.beat.toNat) then
        setPrt (s.setLease { s.lease with sent := [], grantSent := none, granted := none, yieldSent := none }) prtShadow 5
      else s
    | none => s)

/-- YIELD_TAKEOVER. -/
def execYieldTakeover (s : State) : Host.Outcome State Fault Refusal :=
  .next (match s.lease.yieldTake with
    | some b =>
      if prtState s = prtShadow && decide (b.toNat ≤ s.beat.toNat) then emitHeld (becomeLead s (if s.lease.asked then 6 else 5)) else s
    | none => s)

/-- The hold-off period has been clean (R378). -/
def clean (s : State) : Bool := decide (s.lease.unclean.toNat + s.fld aPrtCfg 7 0 * 1000000000 ≤ s.ns)

/-- FAILBACK: the original asks for the token back after a clean period, and the lead yields. -/
def execFailback (atLead : Bool) (s : State) : Host.Outcome State Fault Refusal :=
  .next (if atLead then sendYield s
    else if prtState s = prtShadow && s.bit aPrtCfg 30 && s.bit aPrtCfg 29 && clean s then s.setLease { s.lease with asked := true }
    else s)

/-- HELD_RESULT_EXPIRY: results older than HOLD ms are dropped (R374). -/
def execHeldResultExpiry (s : State) : Host.Outcome State Fault Refusal :=
  .next { s with heldResults := s.heldResults.filter fun x => decide (s.ns < x.1.toNat + s.fld aPrtCfg 15 8 * 1000000) }

/-! ### Rejoin (R377) -/

/-- PA runs of writable leaf pages below a table at a level of the walk, 3 the root's (R178, R180). -/
def writablePages (s : State) : Nat → Nat → List Nat
  | 0, _ => []
  | lvl + 1, table =>
    (List.range 512).flatMap fun i =>
      let e := (s.bytes (dirPa (table * 0x1000 + 8 * i)) 8)
      let v := leNat e
      if !v.testBit 63 then []
      else if lvl = 0 then (if v.testBit 61 then [bits v 47 21 * 0x200000] else [])
      else writablePages s lvl (bits v 11 0)

/-- Contexts resident on the module. -/
def residents (s : State) : List CtxId := (List.finRange 64).filter fun c => ctxState s c ≠ ctxEmpty

/-- What a context's copy takes: its SRAM windows and its writable local stack pages, as PA and length. -/
def copyRuns (s : State) (c : CtxId) : List (Nat × Nat) :=
  let wins := (diesOf (s.rd (aHubCtxcfg c)).toNat).map fun (d : DieId) =>
    (sramPa d (windowBase (ctxWindow s d c)), windowBytes (ctxWindow s d c))
  let root := (s.rd64 (aHubCtxptr0 c)).toNat
  let pages := if root.testBit 63 then writablePages s 3 (bits root 11 0) else []
  wins ++ (pages.filter fun p => match place (ownModule s) p with | .stack _ _ => true | _ => false).map fun p =>
    (localPa (ownModule s) p, 0x200000)

/-- A run written to the same address of the partner, in WR_REQ messages of 2,048 bytes on X14, in class 5. -/
def copyRun (s : State) (r : Nat × Nat) : State :=
  (List.range ((r.2 + 2047) / 2048)).foldl (fun s i =>
    let n := min 2048 (r.2 - 2048 * i)
    let tag := s.nextTag
    let m : XMsg :=
      { kind := 0x02, m := Fin.ofNat 8 (ownModule s), tag := tag, addr := BitVec.ofNat 48 (r.1 + 2048 * i), len := n,
        data := s.bytes (r.1 + 2048 * i) n }
    let use : GrantUse := match place (ownModule s) r.1 with
      | .stack n _ => .inbound (Fin.ofNat 16 partnerPort) (Fin.ofNat 32 n) false
      | _ => .other
    let s₁ := xsend (s.askLines (portRequester (Fin.ofNat 16 partnerPort)) true use (r.1 + 2048 * i) n) partnerPort false m
    { s₁ with
      nextTag := tag + 1
      remotes := s₁.remotes ++ [{ x := Fin.ofNat 16 partnerPort, tag := tag, what := .copy }] }) s

/-- Bytes of a unit that was written after its copy: a 2 MiB page of a stack, or 64 KiB of SRAM. -/
def unitSize (pa : Nat) : Nat := if pa < 0x20000000000 then 0x200000 else 0x10000

def dirtyRuns (o : CopyOp) : List (Nat × Nat) := o.dirty.map fun u => (u, unitSize u)
def runBytes (rs : List (Nat × Nat)) : Nat := rs.foldl (fun n r => n + r.2) 0

/-- A round copies its runs; PRT_COPY shows it and its MiB (R389). -/
def copyNow (s : State) (o : CopyOp) (rs : List (Nat × Nat)) : State :=
  let s₁ := rs.foldl copyRun { s with copyOp := some { o with dirty := [] } }
  (s₁.setFld aPrtCopy 31 28 o.round).setFld aPrtCopy 27 0 ((runBytes rs + 0xFFFFF) / 0x100000)

/-- JOIN at the lead: the first round copies everything. -/
def execJoin (s : State) : Host.Outcome State Fault Refusal :=
  let s₁ := lctlTake s partnerPort (isBeat 6)
  .next (if prtState s = prtLead then copyNow s₁ { round := 1 } ((residents s₁).flatMap (copyRuns s₁)) else s₁)

/-- COPY_ROUND: over the dirty units until they total 4 MiB or less, or until 8 rounds have passed; then the contexts follow,
each at its next step end. -/
def execCopyRound (s : State) : Host.Outcome State Fault Refusal :=
  .next (match s.copyOp with
    | some o =>
      if o.stepping then s
      else if runBytes (dirtyRuns o) ≤ 0x400000 ∨ 8 ≤ o.round then
        { s with copyOp := some { o with stepping := true } }.setFld aPrtCopy 27 0 0
      else copyNow s { o with round := o.round + 1 } (dirtyRuns o)
    | none => s)

/-- The lead copies what is still dirty and releases the context's step. -/
def stepCopyLead (s : State) (c : CtxId) : State :=
  match s.copyOp with
  | some o =>
    if !o.hold.contains c then s
    else
      let s₁ := (dirtyRuns o).foldl copyRun s
      let o₁ := { o with dirty := [], hold := o.hold.filter (· ≠ c), done := o.done ++ [c] }
      { s₁ with copyOp := if (residents s).all fun x => o₁.done.contains x then none else some o₁ }
  | none => s

/-- Held START_STEP commands that the lead has carried out already are completed; the most recent runs when the lead's has not
begun. -/
def settleHeld (s : State) (c : CtxId) (flag : Bool) : State :=
  let mine := s.syncHeld.filter fun q => q.c = c
  let s₁ := { s with syncHeld := s.syncHeld.filter fun q => q.c ≠ c }
  let keep := if flag then mine.getLast? else none
  let rest := if flag then mine.dropLast else mine
  let s₂ := rest.foldl (fun s q => ctxDone s q.h kStartStep c .ok) s₁
  match keep with
  | some q => startStep s₂ q.h c q.downbeat q.data
  | none => s₂

/-- The step copy reaches the module that rejoins: counters, seeds, sync values and the held commands; with the last context it
is shadow. -/
def stepCopyShadow (s : State) (c : CtxId) (flag : Bool) (step rseed sseed : BitVec 64) (vals : List (ObjId × BitVec 20)) : State :=
  if prtState s ≠ prtSyncing then s
  else
    let s₁ := ((s.wr64 (aHubCtxstep0 c) step).wr64 (aHubCtxrseed0 c) rseed).wr64 (aHubCtxsseed0 c) sseed
    let s₂ := vals.foldl (fun s v => if syncAllowed s v.1 c then setSyncVal s v.1 v.2 else s) s₁
    let s₃ := settleHeld s₂ c flag
    let done := s₃.lease.synced ++ [c]
    let s₄ := s₃.setLease { s₃.lease with synced := done }
    if (residents s₄).all fun x => done.contains x then setPrt (s₄.setLease { s₄.lease with unclean := s.stampNs }) prtShadow 8 else s₄

def execRejoinStepCopy (c : CtxId) (asLead : Bool) (flag : Bool) (step rseed sseed : BitVec 64) (vals : List (ObjId × BitVec 20))
    (s : State) : Host.Outcome State Fault Refusal :=
  .next (if asLead then stepCopyLead s c else stepCopyShadow s c flag step rseed sseed vals)

/-- The module leaves PAIRING or FENCED to copy its state from the lead. -/
def startJoin (s : State) : State :=
  let s₁ := s.setLease { s.lease with granted := none, synced := [], refusing := false }
  toPartner ((s₁.setFld aPrtState 2 0 prtSyncing).notify 4 (BitVec.ofNat 56 prtSyncing) []) 6 [] false

/-! ### Mirror-compare (R383, R384) -/

/-- HASH: acknowledged and compared; one that finds the table full is not taken and comes again. -/
def execHash (r : HashRec) (s : State) : Host.Outcome State Fault Refusal :=
  let s₁ := lctlTake s partnerPort fun m => m = beatMsg s 8 (hashBytes r) || (isBeat 8 m && (m.drop 4).take 21 = hashBytes r)
  let full := decide (s.mc.length ≥ 1024) && !s.mc.any fun e => e.h.id = r.id
  .next (if !mcEnabled s || (full && !mcHalted s) then s₁
    else
      let again := s.mc.any fun e => !e.own ∧ e.h.id = r.id
      let s₂ := lctlSend s₁ partnerPort (beatMsg s 9 ((hashBytes r).take 8)) false
      if again then s₂ else mcCompare s₂ false r)

/-- HASHACK: the HASH it answers is repeated no longer. -/
def execHashack (id : HashId) (s : State) : Host.Outcome State Fault Refusal :=
  let mine (sub : Nat) (m : List Byte) : Bool := isBeat sub m && (m.drop 4).take 6 = hashIdBytes id
  .next (lctlAnswered (lctlTake s partnerPort (mine 9)) partnerPort (mine 8))

/-- A HASH that still has no HASHACK. -/
def hashPending (s : State) (id : HashId) : Bool :=
  (s.link partnerPort).repeats.any fun m => isBeat 8 m && (m.drop 4).take 6 = hashIdBytes id

/-- The record that an unanswered HASH of this module carries (R383). -/
def hashSent (s : State) (id : HashId) : Option HashRec :=
  ((s.link partnerPort).repeats.find? fun m => isBeat 8 m && (m.drop 4).take 6 = hashIdBytes id).map fun m =>
    { id := id, pc := BitVec.ofNat 24 (fieldAt m 10 3), layer := BitVec.ofNat 16 (fieldAt m 13 2),
      operator := BitVec.ofNat 16 (fieldAt m 15 2), hash := BitVec.ofNat 64 (fieldAt m 17 8) }

/-- HASH_TIMEOUT: an entry unmatched for 10 ms, or a HASH without its HASHACK, halts the module. -/
def execHashTimeout (id : HashId) (s : State) : Host.Outcome State Fault Refusal :=
  .next (if !mcEnabled s then s
    else match s.mc.find? fun e => e.h.id = id with
      | some e =>
        if decide (e.entered.toNat + 10000000 ≤ s.ns) || hashPending s id then
          mcHalt { s with mc := s.mc.filter fun x => x.h.id ≠ id } 2 e.h
        else s
      | none => match hashSent s id with
        | some r => mcHalt s 2 r
        | none => s)

/-- MCHALT from the partner: the capture names its identity, with the PC, layer and operator of this module's hash of it; where
it has none those are free (log entry 47). -/
def execMchalt (cause : Byte) (id : HashId) (s : State) : Host.Outcome State Fault Refusal :=
  let s₁ := lctlTake s partnerPort fun m => isBeat 10 m && m.drop 4 = padTo 28 (cause :: hashIdBytes id)
  .next (if !mcEnabled s then s₁
    else match s.mc.find? fun e => e.h.id = id with
      | some e => mcHalt s₁ 3 e.h
      | none => match hashSent s₁ id with
        | some r => mcHalt s₁ 3 r
        | none =>
          let v := s₁.free
          (mcHalt s₁ 3 { id := id, pc := v.truncate 24, layer := (v >>> 24).truncate 16, operator := (v >>> 40).truncate 16,
                         hash := 0 }).tookFree)

end Sys2Proof.Machine
end

