-- ==== Sys2Proof/Machine/StackMem.lean ====
section
/-! DEFINITION. Memory stacks: read tags, write failures, scrub, service and retraining; invalidations (R161 to R172, R184 to
R187, R192). -/
namespace Sys2Proof.Machine

/-! ### Read tags (R172, R192) -/

def pbOf (st : StackId) : Nat := st.val / 8

/-- Requests of a base die that hold tags. -/
def tagsOf (s : State) (pb : Nat) : List ReadReq := s.readReqs.filter fun r => pbOf r.st = pb

/-- A waiting request takes the lowest free tag of its base die, and is served: its lines are read and checked (R165). -/
def serveRead (s : State) (r : ReadReq) : State :=
  let used := (tagsOf s (pbOf r.st)).map fun q => q.tag.val
  match (List.range 1024).find? fun t => !used.contains t with
  | none => { s with readWait := s.readWait ++ [r] }
  | some t =>
    let s₁ := { s with readReqs := s.readReqs ++ [{ r with tag := Fin.ofNat 1024 t, issued := s.stampNs }] }
    let s₂ := s₁.highWater (aPbMctag (pbOf r.st)) 26 16 (tagsOf s₁ (pbOf r.st)).length
    if stackServes s₂ r.st then (stackRead s₂ r.st r.offset.toNat r.bytes).1 else s₂

/-- STACK_REQUEST: a request of up to 2,048 bytes takes a tag, or waits for one. -/
def execStackRequest (requester : Fin 16) (st : StackId) (offset : BitVec 36) (bytes : Nat) (s : State) :
    Host.Outcome State Fault Refusal :=
  .next (serveRead s
    { requester := requester, st := st, offset := offset, bytes := min bytes 2048, tag := 0, issued := s.stampNs })

/-- Requests whose last line has left the controller give their tags back, 96 beats after they took them, the unloaded
latency of R192 (log entry 18); waiting requests take them. -/
def releaseTags (s : State) : State :=
  let late (r : ReadReq) : Bool := r.issued.toNat + 96 ≤ s.ns
  if s.readReqs.any late then
    let s₁ := { s with readReqs := s.readReqs.filter fun r => !late r, readWait := [] }
    s.readWait.foldl serveRead s₁
  else s

/-! ### Service (R162, R167 to R169) -/

/-- A stack becomes FAILED for cause 0 training, 1 write or 2 temperature: its HUB_MEMINV bit clears and the event goes out
(R168, R476). -/
def failStack (s : State) (st : StackId) (cause : Nat) : State :=
  let s₁ := setMemState (s.setBit aHubMeminv st.val false) st.val memFailed
  s₁.report (contained (12 + pbOf st) 0x12 5 st.val cause)

/-- WRITE_CRC_FAIL (R167): retried, retrained with success, or the segment fails with WRITE_ERR and the stack is FAILED. -/
def execWriteCrcFail (st : StackId) (o : CrcOutcome) (seg : Option (DieId × CallerId × CtxId × Nat)) (s : State) :
    Host.Outcome State Fault Refusal :=
  .next (if !stackServes s st.val then s
    else match o with
      | .failed =>
        let s₁ := match seg with
          | none => s
          | some (d, k, c, i) => match segOf s d k c i with
            | none => s
            | some g => segmentComplete s g (some xfWriteErr)
        failStack s₁ st 1
      | _ => s.report (corrected (12 + pbOf st) 0x11 st.val))

/-- PATROL_SCRUB (R166): one line is read and checked; an uncorrectable word is counted and left. -/
def execPatrolScrub (st : StackId) (line : Nat) (s : State) : Host.Outcome State Fault Refusal :=
  .next (if !s.bit (aPbMemctl (pbOf st) (st.val % 8)) 1 || !stackServes s st.val || 128 * line ≥ 0x900000000 then s
    else
      let (s₁, ok) := stackRead s st.val (128 * line) 128
      if ok then s₁ else s₁.report (stackUncorr st.val (stackPa st.val (128 * line)) 15))

/-- STACK_CATASTROPHIC_TEMP (R168): a stack in use becomes FAILED. -/
def execStackCatastrophicTemp (st : StackId) (s : State) : Host.Outcome State Fault Refusal :=
  .next (if memState s st.val = memOff ∨ memState s st.val = memFailed then s else failStack s st 2)

/-- Training ends (R162): the speed reached, with an event for the lower one, or FAILED. -/
def trained (s : State) (st : StackId) (o : TrainOutcome) (next : Nat) : State :=
  let a := aPbMemstat (pbOf st) (st.val % 8)
  match o with
  | .speed2 => setMemState (s.setFld a 5 4 2) st.val next
  | .speed1 => (setMemState (s.setFld a 5 4 1) st.val next).report (corrected (12 + pbOf st) 0x11 st.val)
  | .failed => failStack (s.setFld a 5 4 0) st 0

/-- ZEROING_DONE (R169): every line of the stack is zero with valid check bits, and it is in service. -/
def execZeroingDone (st : StackId) (s : State) : Host.Outcome State Fault Refusal :=
  .next (if memState s st.val ≠ memZeroing then s
    else (setMemState (s.zero (stackPa st.val 0) 0x900000000) st.val memInService).setBit aHubMeminv st.val true)

/-! ### Invalidation (R185 to R187) -/

/-- What an invalidation of scope 0 PAGE, 1 CONTEXT or 2 ALL discards. -/
def invalidates (scope : Nat) (c : Nat) (vpn : Nat) (x : CtxId) (v : BitVec 27) : Bool :=
  match scope with
  | 0 => x.val = c && v.toNat = vpn
  | 1 => x.val = c
  | _ => true

/-- An invalidation starts: entries and walks in flight are discarded, accesses in flight under them are waited for. -/
def startInvalidate (s : State) (scope c : Nat) : State :=
  let hit := invalidates scope c (s.fld aHubTlbinv0 26 0)
  let s₁ := tlbDiscard s hit
  { s₁ with segs := s₁.segs.map fun (g : Seg) => if hit g.ctx (vpnOf g.va) && g.dir ≠ 2 then { g with inval := true } else g }.setBit
    aHubTlbstat 0 true

/-- TLB_INVALIDATE_DONE. -/
def execTlbInvalidateDone (s : State) : Host.Outcome State Fault Refusal :=
  .next (if s.segs.any fun g => g.inval then s else s.setBit aHubTlbstat 0 false)

end Sys2Proof.Machine
end

