-- ==== Sys2Proof/Machine/Power.lean ====
section
/-! DEFINITION. Power domains and stops without a boundary: Callers stopped, dies isolated, stacks in self-refresh, domains
switched on and off, and what each takes with it (R27 to R29, R38, R484, R485, R508, R511). -/
namespace Sys2Proof.Machine

/-! ### Dies -/

/-- Codes of TD_STATE.STATE (R104). -/
def tdState (s : State) (d : Nat) : Nat := s.fld (aTdState d) 2 0
def setTdState (s : State) (d v : Nat) : State := s.setFld (aTdState d) 2 0 v
def tdOff : Nat := 0
def tdInit : Nat := 1
def tdServe : Nat := 2
def tdDraining : Nat := 3
def tdRetired : Nat := 4

/-- A Caller stops at once, without a boundary (R484): it abandons its figure, which relaunches after RESUME. -/
def stopCaller (s : State) (d : DieId) (k : CallerId) : State :=
  match (s.caller d k).ctx with
  | none => s
  | some c =>
    if runs s d k c then
      let q := s.caller d k
      let cc := s.cc d k c
      let s₁ := s.setCc d k c
        { cc with
          held := true
          figerr := 0
          pend := none
          relaunch := cc.relaunch || q.run.isSome }
      freeHeat (s₁.setCaller d k { q with st := .held, run := none, rel := false, stop := false }) d k
    else s

/-- A RUNNING context becomes HELD, and the host is told (R151, R484). -/
def holdRunning (s : State) (d : DieId) (c : CtxId) : State :=
  if ctxState s c = ctxRunning then notifyHeld (setCtxState s c ctxHeld) d 0 c 0 else s

/-- Every Caller of a die stops, and every running context with Callers on it becomes HELD. -/
def stopDie (s : State) (d : DieId) : State :=
  (List.finRange 64).foldl (fun s c => if inDieSet s c d then holdRunning s d c else s)
    ((List.finRange 4).foldl (fun s k => stopCaller s d k) s)

/-- Every Caller of the module stops, and every running context becomes HELD (R485). -/
def stopModule (s : State) : State :=
  (List.finRange 64).foldl (fun s c =>
    holdRunning s (((List.finRange 12).find? fun d => inDieSet s c d).getD 0) c)
    (allCallers.foldl (fun s p => stopCaller s p.1 p.2) s)

/-- A retirement of the die in progress ends (R515). -/
def dropRetire (s : State) (d : DieId) : State :=
  match s.dieOp with
  | some o => if o.die = d && !o.restore then { s with dieOp := none } else s
  | none => s

/-- Die isolation (R484): TD_UP clears, the Callers stop, the die is RETIRED with its domain on. -/
def isolateDie (s : State) (d : DieId) : State :=
  if tdState s d = tdOff then s
  else dropRetire (setTdState (stopDie (s.setBit aHubInv d.val false) d) d tdRetired) d

/-! ### Stacks -/

/-- Stacks of the mask that are IN_SERVICE enter self-refresh: their HUB_MEMINV bits clear, their contents stay (R29, R463). -/
def selfRefresh (s : State) (mask : BitVec 32) : State :=
  (List.range 32).foldl (fun s st =>
    if mask.getLsbD st && memState s st = memInService then
      let s₁ := setMemState (s.setBit aHubMeminv st false) st memSelfRefresh
      { s₁ with boot := { s₁.boot with kept := s₁.boot.kept ||| BitVec.ofNat 32 (2 ^ st) } }
    else s) s

/-- The eight stacks of a base die. -/
def pbStacks (k : Nat) : BitVec 32 := BitVec.ofNat 32 (0xFF * 2 ^ (8 * k))

/-- The contents of a local range are lost: it reads as memory that nothing has written. -/
def loseBytes (s : State) (pa n : Nat) : State :=
  { s with mem := SMap.clear s.mem pa (pa + n - 1), ecc := SMap.clear s.ecc (pa / 8) ((pa + n - 1) / 8) }

/-- The contents of a stack are lost (R168). -/
def loseStack (s : State) (st : Nat) : State :=
  let s₁ := loseBytes s (stackPa st 0) 0x900000000
  { s₁ with boot := { s₁.boot with kept := s₁.boot.kept &&& ~~~(BitVec.ofNat 32 (2 ^ st)) } }

/-! ### Sensors and domains -/

/-- The domain that holds a sensor (R497). -/
def sensorDomain (i : Nat) : Nat :=
  if i < 192 then i / 16 else if i < 240 then 12 + (i - 192) / 12 else if i < 248 then 16 else 19

def domSensors (d : Nat) : List Nat := (List.range 264).filter fun i => sensorDomain i = d

def sensorBroken (s : State) (i : Nat) : Bool := s.bit (aTpSens i) 31

/-- The sensor's broken state and cause (R499, R519, R522). -/
def setBroken (s : State) (i : Nat) (b : Bool) (cause : Nat) : State :=
  ((s.setBit (aTpSens i) 31 b).setFld (aTpSens i) 30 28 cause).setBit (aTpBroken (i / 32)) (i % 32) b

/-- A domain is on: its sensors have readings again and none is broken; a tensor die starts at TLEVEL 16 (R499, R504). -/
def domainOn (s : State) (d : Nat) : State :=
  let s₁ := s.setFld (aTpDom d) 2 0 2
  let s₂ := if d < 12 then (s₁.setFld (aTpDom d) 20 16 16).setBit (aTpDom d) 7 false else s₁
  (domSensors d).foldl (fun s i => setBroken s i false 0) s₂

/-- A domain is off, for a state code 0 OFF or 3 FAULT: its sensors have no reading (R498, R520). -/
def domainOff (s : State) (d code : Nat) : State :=
  (domSensors d).foldl (fun s i => s.setFld (aTpSens i) 15 0 0x8000) (s.setFld (aTpDom d) 2 0 code)

/-- PD_TDn switches off: its registers, SRAM, Callers, transfers and buffers are gone, and TD_STATE reads `st` (R102, R527,
R551). -/
def dieOff (s : State) (d : DieId) (st code : Nat) : State :=
  let n := d.val
  let s₁ := loseBytes (domainOff (s.setBit aHubInv n false) n code) (sramPa n 0) 0x8000000
  let s₂ := (s₁.resetRegs (aTdId n) (aTdId n + 0x2FFF)).resetRegs (aDbgReelctl n) (aDbgReelctl n + 0xFFF)
  let mine (q : Nat) : Bool := q / 8 = n
  let m := s₂.mesh
  let fresh : Mesh :=
    { m with
      tx := m.tx.filter fun e => (planEntry s (activeBank s) e.1).src ≠ n
      txPairs := m.txPairs.filter fun t => !mine t.src.val
      rxPairs := m.rxPairs.filter fun r => r.die ≠ d
      landing := m.landing.filter fun e => !mine e.1
      cursors := m.cursors.filter fun e => e.1 / 4096 ≠ n }
  let s₃ := { s₂ with
    callers := SMap.clear s₂.callers (4 * n) (4 * n + 3)
    cctx := SMap.clear s₂.cctx (256 * n) (256 * n + 255)
    waiters := s₂.waiters.filter fun w => w.slot.val / 4 ≠ n
    tlb := s₂.tlb.filter fun e => e.tlb.val ≠ n
    walks := s₂.walks.filter fun w => w.tlb.val ≠ n
    segs := s₂.segs.filter fun g => g.die ≠ d
    mesh := fresh
    dbg := { s₂.dbg with
      reels := SMap.clear s₂.dbg.reels n n
      idleBeats := SMap.clear s₂.dbg.idleBeats (4 * n) (4 * n + 3)
      expired := s₂.dbg.expired.filter fun c => c / 4 ≠ n } }
  setTdState s₃ n st

/-- PD_TDn switches on: the die is in INIT (R89). -/
def dieOn (s : State) (d : DieId) : State := setTdState (domainOn s d.val) d.val tdInit

/-- INIT ends: every line of the SRAM is zero with valid check bits (R89). -/
def initSram (s : State) (d : DieId) : State := loseBytes s (sramPa d.val 0) 0x8000000

/-- Dies of a base die (R28). -/
def pbDies (k : Nat) : List DieId := (List.finRange 12).filter fun d => d.val / 3 = k

/-- Ports whose ring controllers lie on a base die (R280). -/
def pbPorts (k : Nat) : List Nat := (List.range 24).map (24 * k + ·) ++ [116 + k]

/-- What a port's controllers hold is gone. -/
def losePort (s : State) (p : Nat) : State :=
  let o := s.opt
  { s with opt := { o with
      rings := SMap.clear o.rings (36 * p) (36 * p + 35)
      ports := SMap.clear o.ports p p } }

/-- PD_PBk switches off, with its dies before it. Stacks in self-refresh keep their contents; with `lost` all of them lose
theirs, as when the domain faults (R28, R29, R508). -/
def baseOff (s : State) (k : Nat) (lost : Bool) (code : Nat) : State :=
  let s₁ := (pbDies k).foldl (fun s d => dieOff s d tdOff 0) s
  let s₂ := if lost then (List.range 8).foldl (fun s j => loseStack s (8 * k + j)) s₁ else selfRefresh s₁ (pbStacks k)
  let s₃ := (List.range 8).foldl (fun s j => s.setBit aHubMeminv (8 * k + j) false) s₂
  let s₄ := (domainOff (s₃.setBit aHubInv (12 + k) false) (12 + k) code).resetRegs (0x2000000 + 0x100000 * k) (0x20163FF + 0x100000 * k)
  let here (t : Fin 44) : Bool := decide (12 + 8 * k ≤ t.val ∧ t.val < 20 + 8 * k)
  (pbPorts k).foldl losePort
    { s₄ with
      readReqs := s₄.readReqs.filter fun r => pbOf r.st ≠ k
      readWait := s₄.readWait.filter fun r => pbOf r.st ≠ k
      tlb := s₄.tlb.filter fun e => !here e.tlb
      walks := s₄.walks.filter fun w => !here w.tlb }

/-! ### The reset of everything outside the standby island (R462, R551) -/

/-- A register that the standby island holds: HUB_BOOT to the flash buffer, the fatal latch, the thermal and power block,
HLK_CFG (R440, R462, R551). -/
def islandReg (a : Nat) : Bool :=
  (0xE00 ≤ a && a ≤ 0x10FF) || (0x4000 ≤ a && a ≤ 0x50FF) || a = aFltStatus2 || a = aFltStatus3 ||
    (0x6000000 ≤ a && a ≤ 0x600081F) || a = aHlkCfg

/-- Stacks whose contents outlive the reset: those in self-refresh. -/
def keepsStack (s : State) (pa : Nat) : Bool := pa < 0x20000000000 && s.boot.kept.getLsbD (pa / 0x1000000000)

/-- Light banks and links across a reset: session numbers, LB6's off state and the ferrule contacts stay (R304, R342, R424). -/
def keptContacts (old s : State) : State :=
  (List.range 16).foldl (fun s x => (s.wr (aLnkSession x) (old.rd (aLnkSession x))).setBit (aEyeState x) 3 (old.bit (aEyeState x) 3))
    (s.wr aHlkSession (old.rd aHlkSession))

/-- Everything outside the standby island back at reset; the island, the EEPROM, the flash, the pins of the sideband, stacks in
self-refresh and the free-value counter stay. Every domain is off. -/
def resetModule (s : State) : State :=
  let s₁ : State :=
    { State.reset with
      pending := s.pending
      regs := s.regs.filter fun e => islandReg e.1
      mem := s.mem.filter fun e => keepsStack s e.1
      ecc := s.ecc.filter fun e => keepsStack s (8 * e.1)
      lag := s.lag
      freeCtr := s.freeCtr
      latches := s.latches.filter fun e => e.1 = 4
      eeprom := s.eeprom
      image := {}
      hlk := { oldSession := s.rd aHlkSession, oldCounts := (List.range 4).map fun c => s.rd (aHlkAccept c) }
      light := { lb6Off := s.light.lb6Off }
      pins := { s.pins with syncOut := none, errPulse := false, errReleased := none, errDeferred := false, xspiReset := none, guestFeed := none }
      boot := { s.boot with phase := 0, realign := false, stepped := none, lastSent := none }
      clock := s.clock
      flash := s.flash
      recheck := s.recheck }
  let s₂ := (List.range 20).foldl (fun s d => domainOff s d 0) (keptContacts s s₁)
  let s₃ := if s.bit aHubAttctl 30 then (s₂.setBit aHubAttctl 30 false).setBit aHubAttctl 29 false else s₂
  s₃.setFld aHubBoot 31 28 0

end Sys2Proof.Machine
end

