-- ==== Sys2Proof/Machine/Faults.lean ====
section
/-! DEFINITION. The fault collector: history, first-error capture, status, escalation timers and isolations, the fatal
reaction, ERR_N, and clearing (R473 to R490). -/
namespace Sys2Proof.Machine

/-- The hub has power. -/
def hubOn (s : State) : Bool := domOn s 16

def State.setFlt (s : State) (c : Collector) : State := { s with flt := c }

/-! ### History and capture (R479 to R482) -/

/-- Entry that the next event writes. -/
def histNext (s : State) : Nat := s.fld aFltHqstat 3 0

/-- Number of the next event, 1 after a reset: one more than the newest entry's (R479). -/
def histSeq (s : State) : Word := s.rd (aFltE4 ((histNext s + 15) % 16)) + 1

/-- E2 of an event (R480). -/
def eventId (r : FaultReport) : Word :=
  BitVec.ofNat 32 (2 ^ 31 + r.cls.val * 2 ^ 28 + r.subtype.toNat * 2 ^ 24 + r.source.val * 2 ^ 19 + r.inst.toNat)

/-- E3 of an event. -/
def syndrome (r : FaultReport) : Word := BitVec.ofNat 32 (r.event.toNat * 2 ^ 24 + r.detail.toNat)

/-- Pairs of words from `a` are written with fresh check bits. -/
def writePairs (s : State) (k a n : Nat) : State := (List.range n).foldl (fun s i => s.hubWrite k (a + 8 * i)) s

/-- The event takes the entry at NEXT; one that software has not processed is lost (R479). -/
def histWrite (s : State) (r : FaultReport) : State :=
  let i := histNext s
  let lost := s.bit (aFltE2 i) 31 && decide ((s.rd aFltHqread).toNat < (s.rd (aFltE4 i)).toNat)
  let s₁ := if lost then s.count aFltHqstat 31 20 1 else s
  let s₂ := ((s₁.wr64 (aFltE0 i) s.beat).wr (aFltE2 i) (eventId r)).wr (aFltE3 i) (syndrome r)
  let s₃ := (s₂.wr (aFltE4 i) (histSeq s)).setFld aFltHqstat 3 0 (i + 1)
  writePairs (s₃.setFlt { s.flt with checked := s.flt.checked.filter (· ≠ i) }) 8 (aFltE0 i) 4

/-- The first-error capture takes the event while it is empty (R481, R495). -/
def firstError (s : State) (r : FaultReport) : State :=
  if s.bit aFltFe1 31 || (r.cls.val = 0 && !s.bit aFltCfg 31) then s
  else
    let s₁ := s.wr aFltFe0 (r.addr.truncate 32)
    let s₂ := s₁.capture aFltFe1 (BitVec.ofNat 32 (2 ^ 31 + r.space.toNat * 2 ^ 28 + r.master.toNat * 2 ^ 24 + r.access.toNat * 2 ^ 21 +
      r.addr.toNat / 2 ^ 32))
    let s₃ := ((s₂.wr64 aFltFe2 s.beat).setFld aFltFe4 29 0 (eventId r).toNat).wr aFltFe5 (syndrome r)
    writePairs (s₃.setFlt { s.flt with checked := s.flt.checked.filter (· ≠ 16) }) 9 aFltFe0 3

/-- A word of an entry, or of the capture as entry 16, is read: corrected, or BAD for an entry in double error. Either
finding is reported once until the entry is next written (R482). -/
def checkEntry (s : State) (i a : Nat) : State :=
  let pa := hubMark a
  let w := s.eccAt pa
  if w = 0 then s
  else
    let s₁ := if w = 1 then s.setEcc pa 0 else if i < 16 then s.setBit (aFltE2 i) 30 true else s
    if s.flt.checked.contains i then s₁
    else (s₁.setFlt { s₁.flt with checked := s₁.flt.checked ++ [i] }).report (corrected 31 0x58 i)

/-! ### ERR_N (R487) -/

def errLow (s : State) : Bool := s.bit aFltErrn 30

/-- ERR_N is released. -/
def errRelease (s : State) : State :=
  { s with pins := { s.pins with errReleased := some s.stampNs } }.setBit aFltErrn 30 false

/-- A pulse begins. -/
def errPulse (s : State) : State :=
  { s with pins := { s.pins with errPulse := true, errDeferred := false } }.setBit aFltErrn 30 true

/-- ERR_N has been high for 2 µs. -/
def errGapOver (s : State) : Bool :=
  match s.pins.errReleased with | some b => decide (b.toNat + 2000 ≤ s.ns) | none => true

/-- An event that drives ERR_N: its pulse begins, is shared with one in progress, or waits for the release and the gap. -/
def errDrive (s : State) : State :=
  if s.pins.errPulse then s
  else if errLow s || !errGapOver s then { s with pins := { s.pins with errDeferred := true } }
  else errPulse s

/-- ERRN_PULSE_END. -/
def execErrnPulseEnd (s : State) : Host.Outcome State Fault Refusal :=
  .next (if !s.pins.errPulse then s
    else
      let s₁ := { s with pins := { s.pins with errPulse := false } }
      if s.bit aFltErrn 31 || fatalLatched s then s₁ else errRelease s₁)

/-- ERR_N_DEFERRED_PULSE. -/
def execErrNDeferredPulse (s : State) : Host.Outcome State Fault Refusal :=
  .next (if s.pins.errDeferred && !errLow s && errGapOver s then errPulse s else s)

/-- HOLD written: 0 releases an ERR_N that is held. -/
def writeErrn (s : State) : State :=
  if !s.bit aFltErrn 31 && errLow s && !s.pins.errPulse && !fatalLatched s then errRelease s else s

/-! ### The fatal reaction (R478, R485) -/

/-- The fatal latch: the bit of the source, and for the first cause its code and source. -/
def latchFatal (s : State) (src : Nat) (code : BitVec 8) (esc : Bool) : State :=
  let s₁ := s.setBit aFltStatus2 src true
  if fatalLatched s then s₁
  else s₁.wr aFltStatus3 (s₁.rd aFltStatus3 ||| BitVec.ofNat 32 (2 ^ 31 + (if esc then 2 ^ 29 else 0) + src * 2 ^ 16 + code.toNat * 2 ^ 8))

/-- An external port says that it goes down, and darkens as if FORCE_DARK were set (R485). -/
def darkenFatal (s : State) (x : Nat) : State :=
  let alive := lnkAlive s x
  let s₁ := disarm (darken s x 3) x
  if alive then s₁.setLink x { s₁.link x with lctl := List.replicate 8 (downMsg 2) } else s₁

/-- A dump in progress stops uncommitted, with an ERR code (R540). -/
def stopDump (s : State) (err : Nat) : State :=
  if s.dbg.dump.isNone then s
  else ({ s with dbg := { s.dbg with dump := none } }.setBit aDbgDumpctl 28 false).setFld aDbgDumpctl 26 24 err

/-- A partner lead stops emitting and is FENCED; no CAUSE code of R389 names it. -/
def fenceLead (s : State) : State :=
  if prtState s = prtLead then (s.setFld aPrtState 2 0 prtFenced).notify 4 (BitVec.ofNat 56 prtFenced) [] else s

/-- NOTIFY source 1: context, port or source; code, class and INSTANCE of the event (R432). -/
def notifyError (s : State) (r : FaultReport) : State :=
  let n := r.inst.toNat
  let what := match r.subtype.toNat with | 1 => n % 64 | 2 => n % 16 | 3 => n % 16 | _ => r.source.val
  let arg : BitVec 56 := BitVec.ofNat 56 (what + r.event.toNat * 2 ^ 8 + r.cls.val * 2 ^ 16 + r.source.val * 2 ^ 24 + n * 2 ^ 32)
  if r.subtype = 1 then s.toHost (.notify (ctxChan s (Fin.ofNat 64 n)) 1 (some (Fin.ofNat 64 n)) arg []) else s.notify 1 arg []

/-- The module's reaction to the latch, its steps in the order of R485. Without power in the hub only the latch is left. -/
def fatalReact (s : State) (r : FaultReport) (src : Nat) (code : BitVec 8) (esc : Bool) : State :=
  let first := !fatalLatched s
  let s₁ := latchFatal s src code esc
  if !first || !hubOn s then s₁
  else
    let s₂ := fenceLead (s₁.setBit aFltErrn 30 true)
    let s₃ := selfRefresh (stopModule (s₂.setFlt { s₂.flt with timers := [] })) 0xFFFFFFFF
    let s₄ := stopDump ((List.range 16).foldl darkenFatal s₃) 3
    notifyError ({ s₄ with boot := { s₄.boot with phase := 0 } }.setFld aHubBoot 31 28 bootFaulted) r

/-! ### Recording an event (R473 to R481) -/

def timerOf (s : State) (src : Nat) : Option EscTimer := SMap.get (fun _ => none) s.flt.timers src
def setTimer (s : State) (src : Nat) (t : Option EscTimer) : State :=
  s.setFlt { s.flt with timers := SMap.set (fun _ => none) s.flt.timers src t }

def recordedAt (s : State) (src : Nat) : List (BitVec 4 × BitVec 16) := SMap.get (fun _ => []) s.flt.recorded src

def addScope (xs : List (BitVec 4 × BitVec 16)) (x : BitVec 4 × BitVec 16) : List (BitVec 4 × BitVec 16) :=
  if xs.contains x then xs else xs ++ [x]

/-- A class 1 event starts its source's timer, or joins the events of the one that runs; after the latch none starts (R483,
R484, R485). -/
def startTimer (s : State) (r : FaultReport) : State :=
  let x := (r.subtype, r.inst)
  if fatalLatched s then s
  else match timerOf s r.source with
    | some t => setTimer s r.source (some { t with scopes := addScope t.scopes x })
    | none => setTimer s r.source (some { code := r.event, left := s.fld aFltCfg 9 0 * 10000000, scopes := [x] })

/-- The status bit of the event's class, and what its class brings. -/
def recordClass (s : State) (r : FaultReport) : State :=
  match r.cls with
  | 0 => s.flag aFltStatus0 r.source
  | 1 =>
    let s₁ := s.flag aFltStatus1 r.source
    let s₂ := s₁.setFlt
      { s₁.flt with
        recorded := SMap.set (fun _ => []) s₁.flt.recorded r.source (addScope (recordedAt s r.source) (r.subtype, r.inst)) }
    notifyError (startTimer s₂ r) r
  | 2 => fatalReact s r r.source r.event false

/-- An event reaches the collector. -/
def recordEvent (s : State) (r : FaultReport) : State :=
  let s₁ := firstError (histWrite s r) r
  let drives := r.cls.val = 2 || s.bit aFltErrn r.cls.val
  recordClass (if drives then errDrive s₁ else s₁) r

/-- FAULT_EVENT: an event on its way arrives. With the hub off only the fatal latch, in the standby island, can take one. -/
def execFaultEvent (r : FaultReport) (s : State) : Host.Outcome State Fault Refusal :=
  let s₁ := { s with reports := s.reports.erase r }
  .next (if hubOn s then recordEvent s₁ r else if r.cls.val = 2 then latchFatal s₁ r.source r.event false else s)

/-! ### Isolation and escalation (R474, R483, R484, R486) -/

/-- The optical port that an INSTANCE names at a source. -/
def portAt (src inst : Nat) : Nat :=
  if src < 12 then 8 * src + inst % 8 else if src = 26 then 96 + inst % 16 else if src = 29 then 112 + inst % 4
  else 116 + (inst % 16 + 12) % 16

/-- The flits of an internal port are discarded, and the figures that sent them end with the link-down error. -/
def flushInternal (s : State) (q : Nat) : State :=
  let held := ((s.mesh.txPairs.filter fun t => t.src.val = q).flatMap fun t => t.store.filterMap fun f => f.flit.origin).eraseDups
  let s₁ := { s with mesh := { s.mesh with txPairs := s.mesh.txPairs.filter fun t => t.src.val ≠ q } }
  held.foldl (fun s o => flushOrigin s (q % 8) o) s₁

/-- Port isolation: down, and flushed without a grace period. -/
def isolatePort (s : State) (q : Nat) : State :=
  if isXPort q then flushPort (linkDown (s.setBit (aLnkCtl (q - 96)) 1 true) (q - 96) .ctl) (q - 96)
  else flushInternal (portDown s q) q

/-- The isolation of one event's scope (R474). -/
def isolate (s : State) (src : Nat) (x : BitVec 4 × BitVec 16) : State :=
  let n := x.2.toNat
  match x.1.toNat with
  | 1 => if src < 12 then isolateDie s (Fin.ofNat 12 src) else s
  | 2 => isolatePort s (portAt src n)
  | 3 => isolatePort s (portAt src n)
  | 4 => if src < 12 then isolateDie s (Fin.ofNat 12 src) else selfRefresh ((pbDies (src - 12)).foldl isolateDie s) (pbStacks (src - 12))
  | 5 => if memState s (n % 32) = memFailed then s else failStack s.tookFree (Fin.ofNat 32 n) (s.free.toNat % 4)
  | 9 => if n % 32 < 12 then isolateDie s (Fin.ofNat 12 (n % 32)) else s
  | 10 => guestReset s
  | _ => s

/-- The sources whose timers have expired, in ascending order. -/
def expiredTimers (s : State) : List (Nat × EscTimer) :=
  (List.range 32).filterMap fun i => match timerOf s i with
    | some t => if t.left = 0 then some (i, t) else none
    | none => none

/-- An escalation as the event it notifies. -/
def escReport (src : Nat) (t : EscTimer) : FaultReport :=
  { source := Fin.ofNat 32 src, event := t.code, cls := 2, subtype := 0, inst := 0, detail := 0 }

/-- ESCALATION: every scope of the timers that have expired is isolated once, and the fatal latch sets for the lowest of
their sources (R484, R486). -/
def escalate (s : State) (src : Nat) : State :=
  match expiredTimers s with
  | [] => s
  | (i, t) :: rest =>
    if !((i, t) :: rest).any (fun e => e.1 = src) then s
    else
      let scopes := (((i, t) :: rest).flatMap fun e => e.2.scopes.map fun x => (e.1, x)).eraseDups
      let s₁ := scopes.foldl (fun s x => isolate s x.1 x.2) s
      let s₂ := fatalReact s₁ (escReport i t) i t.code true
      rest.foldl (fun s e => s.setBit aFltStatus2 e.1 true) s₂

def execEscalation (src : Fin 32) (s : State) : Host.Outcome State Fault Refusal := .next (escalate s src)

/-- The host link of R483 is UP: timers run, by `dt` picoseconds. -/
def tickTimers (dt : Nat) (s : State) : State :=
  if s.flt.timers = [] || !hostUp s then s
  else s.setFlt { s.flt with timers := s.flt.timers.map fun e => (e.1, e.2.map fun t => { t with left := t.left - dt }) }

/-- FLT_TSTAT: timers that run or are paused. -/
def tstat (s : State) : Word :=
  (List.range 32).foldl (fun w i => if (timerOf s i).isSome then w ||| BitVec.ofNat 32 (2 ^ i) else w) 0

/-! ### Acknowledging and clearing (R483, R486, R488) -/

/-- A timer that has not expired stops. -/
def stopTimer (s : State) (src : Nat) : State :=
  match timerOf s src with
  | some t => if t.left = 0 then s else setTimer s src none
  | none => s

/-- FLT_ACK written. -/
def ackTimers (s : State) (v : Word) : State :=
  (List.range 32).foldl (fun s i => if v.getLsbD i then stopTimer s i else s) s

/-- A connection of a port has fewer than 8 lanes under the active plan. -/
def connNarrow (s : State) (q : Nat) : Bool :=
  (List.range (planNent s (activeBank s))).any fun e =>
    let p := planEntry s (activeBank s) e
    (endpointInputs p.src).any fun i =>
      entryOwns s e i && (entryOutputs p i).any fun o => (i = q || o = q) && decide (connLanes s i o < 8)

/-- A port is not up. -/
def portIsDown (s : State) (q : Nat) : Bool := if isXPort q then !lnkAlive s (q - 96) else rngState s q ≠ rngUp

/-- The cause of an uncorrected-contained event is present (R474). -/
def causePresent (s : State) (src : Nat) (x : BitVec 4 × BitVec 16) : Bool :=
  let n := x.2.toNat
  let q := portAt src n
  let e := q - 96
  match x.1.toNat with
  | 1 => src < 12 && (List.finRange 4).any fun k => (s.caller (Fin.ofNat 12 src) k).st = .held
  | 2 => portIsDown s q || (isXPort q && (s.bit (aLnkState e) 9 || s.bit aMmPeer (16 + e) || eyeState s e = eyeLocked))
  | 3 => decide (dataLanes s q < 16) || connNarrow s q
  | 5 => memState s (n % 32) = memFailed
  | 6 => s.mesh.lost ≠ []
  | 7 => mcHalted s
  | 8 => hlkState s ≠ hlkUp
  | 9 => sensorBroken s (n / 32 % 512)
  | 10 => s.bit aGfwErr 31
  | _ => false

/-- A write of 1 to FLT_STATUS1 bits: each clears with its timer where no cause is present, unless its timer has expired. -/
def clearStatus1 (s : State) (v : Word) : State :=
  (List.range 32).foldl (fun s i =>
    let expired := match timerOf s i with | some t => t.left = 0 | none => false
    if v.getLsbD i && s.bit aFltStatus1 i && !expired && !(recordedAt s i).any (causePresent s i) then
      let s₁ := setTimer (s.setBit aFltStatus1 i false) i none
      s₁.setFlt { s₁.flt with recorded := SMap.set (fun _ => []) s₁.flt.recorded i [] }
    else s) s

end Sys2Proof.Machine
end

