-- ==== Sys2Proof/Machine/Thermal.lean ====
section
/-! DEFINITION. Sensors, thermal trip, throttle, power levels, stage faults, and the retirement and restoration of a tensor
die (R497 to R522, R577). -/
namespace Sys2Proof.Machine

/-! ### Sensors (R498, R499) -/

/-- A signed number of 1/16 °C in the 16 bits of a reading. -/
def readingBits (x : Int) : Nat := (BitVec.ofInt 16 (max (min x 0x7FFF) (-0x7FFF))).toNat

/-- Codes of TP_SENS.CAUSE (R522). -/
def causeCode : SensorCause → Nat
  | .range => 1 | .stuck => 2 | .selfcheck => 3 | .disagree => 4

/-- The first cause breaks a sensor whose domain is on: its bit sets and event 0x40 goes out. -/
def breakSensor (s : State) (i : Nat) (cause : SensorCause) : State :=
  if sensorBroken s i || !domOn s (sensorDomain i) then s
  else (setBroken { s with recheck := s.recheck.filter (·.val ≠ i) } i true (causeCode cause)).report (contained 28 0x40 9 (sensorDomain i + 32 * i) 0)

/-- SENSOR_UPDATE: the higher of the two elements; one outside −40 °C to 150 °C breaks the sensor. -/
def execSensorUpdate (i : Fin 264) (a b : Int) (s : State) : Host.Outcome State Fault Refusal :=
  .next (if !domOn s (sensorDomain i) then s
    else
      let s₁ := s.setFld (aTpSens i) 15 0 (readingBits (max a b))
      if max a b < -640 ∨ 2400 < max a b then breakSensor s₁ i .range else s₁)

/-- SENSOR_BROKEN. -/
def execSensorBroken (i : Fin 264) (cause : SensorCause) (s : State) : Host.Outcome State Fault Refusal :=
  .next (breakSensor s i cause)

/-- SENSOR_SELFCHECK: a failure breaks the sensor; one under RECHECK that passes with its elements agreeing is whole again. -/
def execSensorSelfcheck (i : Fin 264) (pass agree : Bool) (s : State) : Host.Outcome State Fault Refusal :=
  .next (if !domOn s (sensorDomain i) then s
    else if !pass then breakSensor s i .selfcheck
    else if agree && s.recheck.contains i then setBroken { s with recheck := s.recheck.filter (· ≠ i) } i false 0
    else s)

/-- TP_SENSCTL written (R518): a sensor number past 263 is refused. -/
def writeSensctl (s : State) (v : Word) : Option State :=
  let n := getF v 8 0
  if h : n < 264 then
    let s₁ := s.setFld aTpSensctl 8 0 n
    some (if v.getLsbD 31 && sensorBroken s n && !s.recheck.contains ⟨n, h⟩ then { s₁ with recheck := s₁.recheck ++ [⟨n, h⟩] } else s₁)
  else none

/-! ### Thermal shutdown (R500, R501) -/

/-- The light supply loses its power: its registers and light are gone, and every external port darkens (R303, R551). -/
def lightLost (s : State) (code : Nat) : State :=
  let s₁ := (domainOff s 19 code).resetRegs 0x3000000 0x307FFFF
  (List.range 16).foldl (fun s x => disarm (darken s x 4) x)
    { s₁ with light := { s.light with banks := [], dirty := false, lb6Dark := true, darkening := 0 } }

/-- All 20 domains off together: stacks and SRAM are lost, only the standby island is left (R500). -/
def allOff (s : State) : State := resetModule { s with boot := { s.boot with kept := 0 } }

/-- THERMAL_TRIP: both elements at 115 °C on a sensor that is not masked. -/
def execThermalTrip (i : Fin 264) (s : State) : Host.Outcome State Fault Refusal :=
  .next (if sensorBroken s i || !domOn s (sensorDomain i) then s
    else
      let s₁ := (latchFatal (allOff s) 28 0x41 false).setBit aFltStatus3 30 true
      { s₁ with pins := { s₁.pins with thermtrip := true } }.setFld aHubBoot 31 28 bootFaulted)

/-! ### Throttle (R502 to R506) -/

/-- A sensor's reading for the throttle, in 1/16 °C: a broken one counts as the target plus 10 °C. -/
def throttleReading (s : State) (i : Nat) : Int :=
  if sensorBroken s i then ((s.fld aTpCfg 6 0 : Nat) + 10) * 16 else sensorReading s i

/-- Governed temperature of a tensor die: its own sensors and its base die's (R503). -/
def governedTemp (s : State) (d : Nat) : Int :=
  (domSensors d ++ domSensors (12 + d / 3)).foldl (fun m i => max m (throttleReading s i)) (-0x8000)

/-- A level from 4 to 16 after one evaluation. -/
def stepLevel (level : Nat) (above below : Bool) : Nat :=
  if above then max (level - 1) 4 else if below then min (level + 1) 16 else level

/-- One die's evaluation: TLEVEL, THROT, LIMITED and the measured rate (R71, R105, R504, R505). -/
def throttleDie (s : State) (d : DieId) (binds : Bool) (rate : Nat) : State :=
  if !domOn s d.val then s
  else
    let t := governedTemp s d
    let target : Int := (s.fld aTpCfg 6 0 : Nat) * 16
    let level := stepLevel (s.fld (aTpDom d) 20 16) (t > target) (t < target - 48)
    let s₁ := (s.setFld (aTpDom d) 20 16 level).setBit (aTpDom d) 7 (level < 16)
    let s₂ := (s₁.setBit (aTdState d) 7 binds).setFld (aTdRate d) 15 0 (min rate 0xFFFF)
    cueHeat s s₂ d

/-- THROTTLE_EVAL. -/
def execThrottleEval (binds : BitVec 12) (rates : List Nat) (s : State) : Host.Outcome State Fault Refusal :=
  .next ((List.finRange 12).foldl (fun s d => throttleDie s d (binds.getLsbD d.val) ((rates[d.val]?).getD 0)) s)

/-! ### Power (R508 to R510) -/

/-- POWER_EVAL: the input measurements, and PLEVEL of all tensor-die domains. -/
def execPowerEval (power peak10 volt : Nat) (s : State) : Host.Outcome State Fault Refusal :=
  let limit := s.fld aTpCfg 28 16
  let level := s.fld (aTpDom 0) 12 8
  let next := stepLevel level (power > limit) (power + 200 < limit)
  let s₁ := ((s.setFld aTpInput 31 16 (min power 0xFFFF)).setFld aTpInput 15 0 (min volt 0xFFFF)).highWater aTpPeak 31 16
    (min peak10 0xFFFF)
  let s₂ := if next < level then s₁.count aTpPeak 15 0 1 else s₁
  .next ((List.finRange 12).foldl (fun (s : State) (d : DieId) => cueHeat s (s.setFld (aTpDom d.val) 12 8 next) d) s₂)

/-- INPUT_VOLTAGE_FAULT. -/
def execInputVoltageFault (s : State) : Host.Outcome State Fault Refusal := .next (s.report (fatal 28 0x42 31))

/-- REFCLK_FAULT: the hub monitors the reference while it runs (R577). -/
def execRefclkFault (s : State) : Host.Outcome State Fault Refusal := .next (if hubOn s then s.report (fatal 28 0x42 30) else s)

/-- Event 0x09 of a die or base die: a start phase failed (0), or a power stage (1). -/
def partEvent (src inst detail : Nat) : FaultReport := contained src 0x09 4 inst detail

/-- Code of ERR in TP_TDCTL (R518). -/
def setTdErr (s : State) (e : Nat) : State := s.setFld aTpTdctl 27 24 e

/-- The stage of a tensor die faults (R508): as retirement without drain. A restoration of it ends with ERR 3 and leaves it
RETIRED (R514, R515). -/
def dieStageFault (s : State) (d : DieId) : State :=
  let s₁ := stopDie (s.setBit aHubInv d.val false) d
  let restoring := match s.dieOp with | some o => o.die = d && o.restore | none => false
  let mine := match s.dieOp with | some o => decide (o.die = d) | none => false
  let s₂ := dieOff { s₁ with dieOp := if mine then none else s.dieOp } d (if restoring then tdRetired else tdOff) 3
  (if restoring then setTdErr s₂ 3 else s₂).report (partEvent d d 1)

/-- A base die loses its power with its stacks: they are FAILED and their contents lost (R508). -/
def baseFault (s : State) (k : Nat) (code : Nat) : State :=
  let s₁ := (pbDies k).foldl (fun s d => stopDie (s.setBit aHubInv d.val false) d) s
  let s₂ := (List.range 8).foldl (fun s j =>
    if memState s (8 * k + j) = memInService then failStack s.tookFree (Fin.ofNat 32 (8 * k + j)) (s.free.toNat % 4) else s) s₁
  let mine := match s.dieOp with | some o => decide (o.die.val / 3 = k) | none => false
  baseOff { s₂ with dieOp := if mine then none else s.dieOp } k true code

/-- STAGE_FAULT: the domain switches off at once with every domain that depends on it. -/
def stageFault (s : State) (dom : Nat) : State :=
  if !domOn s dom then s
  else if dom < 12 then dieStageFault s (Fin.ofNat 12 dom)
  else if dom < 16 then (baseFault s (dom - 12) 3).report (partEvent dom (dom - 12) 1)
  else if dom = 16 then
    ((latchFatal (allOff s) 28 0x42 false).setFld aHubBoot 31 28 bootFaulted).setFld (aTpDom 16) 2 0 3
  else
    let on (s : State) (k : Nat) : State := if domOn s (12 + k) then baseFault s k 0 else s
    let s₁ := if dom = 17 then on (on s 1) 0
      else if dom = 18 then on (on s 3) 2
      else on (on (on (on s 3) 2) 1) 0
    (if dom = 19 then lightLost s₁ 3 else domainOff s₁ dom 3).report (fatal 28 0x42 dom)

def execStageFault (dom : Fin 20) (s : State) : Host.Outcome State Fault Refusal := .next (stageFault s dom.val)

/-! ### Retiring and restoring (R512 to R515) -/

/-- A save or restore of a context with the die in its set, or in that of the image, is in progress (R33, R157): a save from its
command on. -/
def savingOn (s : State) (d : DieId) : Bool :=
  (List.finRange 64).any fun c =>
    (inDieSet s c d && (ctxState s c = ctxSaving || (s.ctx c).stops.any fun x => match x.1 with | .save _ _ => true | _ => false)) ||
      (ctxState s c = ctxRestoring && match (s.ctx c).restore with | some x => x.1.dies.getLsbD d.val | none => false)

/-- A context with the die in its set is preempted on every die: one that waits for a Caller leaves the run queues, one that runs
stops at its boundaries, and a HELD one stays so (R512). -/
def drainContext (s : State) (c : CtxId) : State :=
  if stopping s c then s
  else if ctxState s c = ctxReady then dequeue s c
  else if ctxState s c = ctxRunning || (ctxState s c = ctxHeld && onCall s c ≠ 0) then awaitStop s c .preempt noKey
  else s

/-- The drain begins: DRAINING, and every context with the die in its set is preempted. -/
def startDrain (s : State) (o : DieOp) : State :=
  let s₁ := setTdState { s with dieOp := some { o with draining := true } } o.die tdDraining
  (List.finRange 64).foldl (fun s c =>
    if inDieSet s c o.die then drainContext s c else s) s₁

/-- A retirement that waited for a save or restore goes on once it has committed; a die that is RETIRED already switches off. -/
def tickRetire (s : State) : State :=
  match s.dieOp with
  | some o =>
    if o.restore || o.draining || savingOn s o.die then s
    else if tdState s o.die = tdRetired then dieOff { s with dieOp := none } o.die tdRetired 0
    else startDrain s o
  | none => s

/-- RETIRE written for a die (R518): none where the write is refused. -/
def retire (s : State) (d : DieId) : Option State :=
  if s.dieOp.isSome then none
  else if tdState s d = tdServe || (tdState s d = tdRetired && domOn s d.val) then
    some (tickRetire { s with dieOp := some { die := d, restore := false } })
  else none

/-- The die's Callers have stopped and its transfers have ended. -/
def drained (s : State) (d : DieId) : Bool :=
  ((List.finRange 4).all fun k => (s.caller d k).run.isNone && match (s.caller d k).ctx with
    | some c => !runs s d k c
    | none => true) && !s.segs.any fun g => g.die = d

/-- RETIRE_DONE. -/
def execRetireDone (d : DieId) (s : State) : Host.Outcome State Fault Refusal :=
  .next (match s.dieOp with
    | some o => if o.die = d && !o.restore && o.draining && drained s d then dieOff { s with dieOp := none } d tdRetired 0 else s
    | none => s)

/-- RESTORE written for a die: the state, and whether the write returns an access error (R514, R518). -/
def restoreDie (s : State) (d : DieId) : State × Bool :=
  if s.dieOp.isSome then (s, true)
  else if tdState s d ≠ tdRetired then (setTdErr s 1, true)
  else
    let off := if domOn s d.val then dieOff s d tdRetired 0 else s
    let s₁ := dieOn { setTdErr off 0 with dieOp := some { die := d, restore := true } } d
    ((List.range 8).foldl (fun s p => beginSearch s (8 * d.val + p)) s₁, false)

/-- TP_TDCTL written (R515, R518): the state, and whether it returns an access error. -/
def writeTdctl (s : State) (v : Word) : State × Bool :=
  let n := getF v 3 0
  if h : n < 12 then
    let d : DieId := ⟨n, h⟩
    let s₁ := s.setFld aTpTdctl 3 0 n
    if v.getLsbD 31 && v.getLsbD 30 then (s, true)
    else if v.getLsbD 31 then (match retire s₁ d with | some t => (t, false) | none => (s, true))
    else if v.getLsbD 30 then (match restoreDie s₁ d with | (t, true) => (setTdErr s (t.fld aTpTdctl 27 24), true) | r => r)
    else (s₁, false)
  else (s, true)

/-- A port of the die comes up with what its margin test found, all lanes at PAM4 where no result has arrived (R274, R276). -/
def restorePort (s : State) (p : Nat) : State := marginDone s p none (some 0x3FFFF) none

/-- DIE_RESTORE_DONE. -/
def dieRestoreDone (s : State) (d : DieId) (o : RestoreOutcome) : State :=
  match s.dieOp with
  | some q =>
    if q.die ≠ d || !q.restore then s
    else
      let s₁ := { s with dieOp := none }
      match o with
      | .domainFault => (setTdErr (dieOff s₁ d tdRetired 3) 3).report (partEvent d d 1)
      | .portFailed => setTdErr (dieOff s₁ d tdRetired 0) 2
      | .allUp =>
        let s₂ := (List.range 8).foldl (fun s p => restorePort s (8 * d.val + p))
          (if tdState s d = tdInit then initSram s₁ d else s₁)
        if portsUp s₂ d.val then
          setTdState ({ s₂ with leftOut := s₂.leftOut &&& ~~~(BitVec.ofNat 12 (2 ^ d.val)) }.setBit aHubInv d.val true) d tdServe
        else setTdErr (dieOff s₂ d tdRetired 0) 2
  | none => s

def execDieRestoreDone (d : DieId) (o : RestoreOutcome) (s : State) : Host.Outcome State Fault Refusal :=
  .next (dieRestoreDone s d o)

/-- SRAM_INIT_DONE (R89): the die is in service; one that is being restored stays RETIRED until its ports are up (R514). -/
def execSramInitDone (d : DieId) (s : State) : Host.Outcome State Fault Refusal :=
  let restoring := match s.dieOp with | some o => o.die = d && o.restore | none => false
  .next (if tdState s d = tdInit then setTdState (initSram s d) d (if restoring then tdRetired else tdServe) else s)

end Sys2Proof.Machine
end

