-- ==== Sys2Proof/Machine/Boot.lean ====
section
/-! DEFINITION. Start-up, the slot flash, identity and attestation, resets and removal (R439 to R472, R575, R579, R580). -/
namespace Sys2Proof.Machine

/-! ### The slot flash (R446, R447) -/

def flashDefault (_ : Nat) : Byte := 0xFF

/-- `n` bytes of the flash from `a`. -/
def flashBytes (f : SMap Byte) (a : Nat) : Nat → List Byte
  | 0 => []
  | n + 1 => SMap.get flashDefault f a :: flashBytes f (a + 1) n

/-- Base of slot A (false) or B (true). -/
def slotBase (b : Bool) : Nat := if b then 0x1000000 else 0

/-- A section: offset in its slot, and length. -/
structure Section where
  off : Nat
  len : Nat
deriving DecidableEq, Repr

/-- A slot as it is read: its header and the bytes of FW, CFG, OWN and POL. -/
structure SlotImage where
  hdr : List Byte
  fw : List Byte
  cfg : List Byte
  own : List Byte
  pol : List Byte
deriving DecidableEq, Repr

def slotHeader (f : SMap Byte) (b : Bool) : List Byte := flashBytes f (slotBase b) 512

def sectionOf (h : List Byte) (i : Nat) : Section where
  off := fieldAt h (16 + 8 * i) 4
  len := fieldAt h (20 + 8 * i) 4

def sectionBytes (f : SMap Byte) (b : Bool) (x : Section) : List Byte := flashBytes f (slotBase b + x.off) x.len

def readSlot (f : SMap Byte) (b : Bool) : SlotImage :=
  let h := slotHeader f b
  { hdr := h
    fw := sectionBytes f b (sectionOf h 0)
    cfg := sectionBytes f b (sectionOf h 1)
    own := sectionBytes f b (sectionOf h 2)
    pol := sectionBytes f b (sectionOf h 3) }

def slotCommitted (f : SMap Byte) (b : Bool) : Bool := fieldAt (slotHeader f b) 508 4 = 0x434F4D54
def slotGen (f : SMap Byte) (b : Bool) : Nat := fieldAt (slotHeader f b) 8 4

/-- Two sections share a byte. -/
def sectionsMeet (x y : Section) : Bool := x.off < y.off + y.len && y.off < x.off + x.len

/-- The section table keeps R447. -/
def tableOk (h : List Byte) : Bool :=
  let xs := (List.range 4).map (sectionOf h)
  xs.all (fun x => x.off % 4096 = 0 && 512 ≤ x.off && x.off + x.len ≤ 0x1000000) &&
    ((List.range 4).all fun i =>
      let n := (sectionOf h i).len
      if i = 0 then 4096 ≤ n && n ≤ 0x800000 else n = 4096) &&
    (List.range 4).all fun i => (List.range i).all fun j => !sectionsMeet (sectionOf h i) (sectionOf h j)

def allZero (bs : List Byte) : Bool := bs.all fun b => b = 0

/-- The CFG section keeps R450. -/
def cfgOk (cfg : List Byte) : Bool :=
  let b (i : Nat) : Byte := (cfg[i]?).getD 0
  let num := (b 4).toNat % 8
  let en := (b 8).getLsbD 0
  let partner := (b 8).toNat / 8 % 8
  fieldAt cfg 0 4 = 0x43464739 && (b 4).toNat < 8 && (b 5).getLsbD num && (b 6).toNat < 4 && b 7 = 0 && (b 8).toNat < 64 &&
    (!en || ((b 6).getLsbD 0 && (b 5).getLsbD partner && partner ≠ num)) && 4 ≤ (b 10).toNat && (b 10).toNat ≤ 64 && b 11 ≠ 0 &&
    70 ≤ (b 12).toNat && (b 12).toNat ≤ 110 && b 13 = 0 && fieldAt cfg 14 2 ≤ 2000 && allZero (cfg.drop 16)

/-- The POL section keeps R451. -/
def polOk (p : List Byte) : Bool :=
  fieldAt p 0 4 = 0x504C4359 && fieldAt p 4 1 < 2 && fieldAt p 5 3 = 0 && allZero (p.drop 56)

/-- The trailer of the FW section (R448). -/
def fwTrailer (fw : List Byte) : List Byte := fw.drop (fw.length - 256)

/-- A number of big-endian bytes. -/
def beNat (bs : List Byte) : Nat := leNat bs.reverse

def sigOf (bs : List Byte) (o : Nat) : BitVec 768 := BitVec.ofNat 768 (beNat ((bs.drop o).take 96))

/-- Digest `i` of the header is that of a section. -/
def digestOk (h : List Byte) (i : Nat) (x : List Byte) : Bool := decide ((h.drop (64 + 48 * i)).take 48 = beBytes384 (Config.sha384 x))

/-- verify_slot of R453: the code of a committed slot; `bad` when a section could not be read. -/
def verifySlot (f : SMap Byte) (b : Bool) (bad : Bool) : Nat :=
  let h := slotHeader f b
  let x := readSlot f b
  let t := fwTrailer x.fw
  let key := x.own.take 97
  if fieldAt h 0 4 ≠ 0x49464B53 ∨ fieldAt h 4 4 ≠ 1 then 1
  else if !tableOk h then 2
  else if bad then 8
  else if !(digestOk h 0 x.fw && digestOk h 1 x.cfg && digestOk h 2 x.own && digestOk h 3 x.pol) then 3
  else if Config.sha384 (t.take 97) ≠ Config.romRootHash then 4
  else if !Config.ecdsaVerify (t.take 97) (x.fw.take (x.fw.length - 96)) (sigOf t 160) then 5
  else if !Config.ecdsaVerify key (h.take 256) (sigOf h 256) then 6
  else if !cfgOk x.cfg || !polOk x.pol then 7
  else 0

/-- choose_slot of R453: the codes of A and B, the slot chosen, and whether a slot with a higher GEN failed. -/
structure Choice453 where
  codeA : Nat
  codeB : Nat
  slot : Option Bool
  fallback : Bool
deriving DecidableEq, Repr

def chooseSlot (f : SMap Byte) (bad : BitVec 2) : Choice453 :=
  let a := slotCommitted f false
  let b := slotCommitted f true
  let va := verifySlot f false (bad.getLsbD 0)
  let vb := verifySlot f true (bad.getLsbD 1)
  match a, b with
  | false, false => { codeA := 1, codeB := 1, slot := none, fallback := false }
  | true, false => { codeA := va, codeB := 1, slot := if va = 0 then some false else none, fallback := false }
  | false, true => { codeA := 1, codeB := vb, slot := if vb = 0 then some true else none, fallback := false }
  | true, true =>
    let bFirst := slotGen f false < slotGen f true
    let higher := slotGen f false ≠ slotGen f true
    if bFirst then
      if vb = 0 then { codeA := 15, codeB := 0, slot := some true, fallback := false }
      else { codeA := va, codeB := vb, slot := if va = 0 then some false else none, fallback := va = 0 }
    else
      if va = 0 then { codeA := 0, codeB := 15, slot := some false, fallback := false }
      else { codeA := va, codeB := vb, slot := if vb = 0 then some true else none, fallback := vb = 0 && higher }

/-! ### The commands of HUB_FLASHCTL (R471) -/

/-- An operation may start: none runs, its address is aligned and outside the slot in use (R454, R460). An OP of 3 is reserved
and is refused with it. -/
def flashOk (s : State) (op : Nat) : Bool :=
  let a := s.fld aHubFlashaddr 24 0
  let used : Bool := if bootState s = bootNoImage then false else s.bit aHubBoot 19 = decide (0x1000000 ≤ a)
  !s.bit aHubFlashctl 30 && op < 3 && !used && a % (if op = 2 then 0x10000 else 256) = 0

/-- GO: the operation starts with the address and the buffer as they are (R563). -/
def flashGo (s : State) (op : Nat) : State :=
  let o : FlashOp :=
    { op := Fin.ofNat 3 op
      addr := s.fld aHubFlashaddr 24 0
      buf := (List.range 64).flatMap fun i => leBytes 4 (s.rd (aHubFlashbuf i)).toNat }
  ({ s with boot := { s.boot with flashOp := some o } }.setBit aHubFlashctl 30 true).setFld aHubFlashctl 1 0 op

def setFlash (s : State) (a : Nat) (bs : List Byte) : State := { s with flash := SMap.setList flashDefault s.flash a bs }

/-- Free bytes: what a failed program or erase leaves (log entry 2). -/
def freeBytes (s : State) (n : Nat) : List Byte := (List.range n).map fun i => (Config.freeValue (s.freeCtr + i)).truncate 8

/-- The operation ends: read data in the buffer, the page or the sector written. -/
def flashEnd (s : State) (o : FlashOp) (err : Nat) : State :=
  let n := if o.op.val = 2 then 0x10000 else 256
  if err = 0 then
    match o.op.val with
    | 0 =>
      let bs := flashBytes s.flash o.addr 256
      (List.range 64).foldl (fun s i => s.wr (aHubFlashbuf i) (BitVec.ofNat 32 (fieldAt bs (4 * i) 4))) s
    | 1 => setFlash s o.addr o.buf
    | _ => { s with flash := SMap.clear s.flash o.addr (o.addr + n - 1) }
  else if o.op.val = 0 then s
  else setFlash { s with freeCtr := s.freeCtr + n } o.addr (freeBytes s n)

/-- FLASH_DONE. -/
def execFlashDone (err : Fin 4) (s : State) : Host.Outcome State Fault Refusal :=
  .next (match s.boot.flashOp with
    | none => s
    | some o =>
      let s₁ := flashEnd { s with boot := { s.boot with flashOp := none } } o err
      (s₁.setBit aHubFlashctl 30 false).setFld aHubFlashctl 27 24 err)

/-! ### Attestation (R457, R458) -/

def nonceWords (s : State) : List Word := (List.range 12).map fun i => s.rd (aHubNonce i)

/-- A write of a nonce word clears VALID. -/
def writeNonce (s : State) (i : Nat) (v : Word) : State := (s.wr (aHubNonce i) v).setBit aHubAttctl 29 false

/-- GO may start a report. -/
def attestOk (s : State) : Bool := !s.bit aHubAttctl 30 && s.bit aHubBoot 17

def attestStart (s : State) : State := { s with boot := { s.boot with attNonce := nonceWords s } }.setBit aHubAttctl 30 true

/-- Bytes 64 to 319 of a report. -/
def reportBody (s : State) : List Byte :=
  let open_ := gfwState s = gfwOpened
  let flags := (if s.bit aHubBoot 18 then 1 else 0) + (if s.bit aHubLgt 24 then 2 else 0) + (if detStrict s then 4 else 0) +
    (if s.bit aHubMode 1 then 8 else 0) + (if open_ then 16 else 0) + (if s.bit aHubBoot 16 then 32 else 0)
  let meas := if gfwState s = gfwAttested ∨ open_ then (List.range 12).flatMap fun i => leBytes 4 (s.rd (aGfwMeas i)).toNat
    else List.replicate 48 0
  beBytes384 s.image.fw ++ beBytes384 s.image.cfg ++ beBytes384 s.image.owner ++ beBytes384 s.image.pol ++ meas ++
    leBytes 4 (s.rd aHubFwver).toNat ++ leBytes 4 s.image.svn.toNat ++ leBytes 4 (s.rd aHubImggen).toNat ++
    [if s.bit aHubBoot 19 then 1 else 0, BitVec.ofNat 8 flags, BitVec.ofNat 8 (ownModule s), 0]

/-- The 512 bytes of a report, signed with the key of the key store. -/
def attReport (s : State) (key : BitVec 384) : List Byte :=
  let body := if bootState s = bootNoImage then List.replicate 256 0 else reportBody s
  let head := leBytes 4 0x41545354 ++ leBytes 4 1 ++ (s.boot.attNonce.flatMap fun (w : Word) => leBytes 4 w.toNat) ++
    leBytes 8 s.beat.toNat ++ body ++ (beBytes384 (Config.sha384 (Config.publicKey key))).take 16 ++ List.replicate 48 0
  head ++ (leBytes 96 (Config.ecdsaSign key head).toNat).reverse ++ List.replicate 32 0

/-- ATTEST_DONE: VALID, unless the nonce has changed since GO. -/
def attestDone (s : State) : State :=
  if !s.bit aHubAttctl 30 then s
  else
    let rep := match s.boot.key with | some k => attReport s k | none => []
    let s₁ := (List.range 128).foldl (fun s i => s.wr (aHubAttrep i) (BitVec.ofNat 32 (fieldAt rep (4 * i) 4))) s
    (s₁.setBit aHubAttctl 30 false).setBit aHubAttctl 29 (decide (nonceWords s = s.boot.attNonce))

def execAttestDone (s : State) : Host.Outcome State Fault Refusal := .next (attestDone s)

/-! ### The parts of a start (R442, R443) -/

def setBoot (s : State) (st : Nat) : State := s.setFld aHubBoot 31 28 st

/-- Event 0x50 of BOOT, kind 0 image fallback, 1 identity unavailable, 2 last-good table invalid. -/
def bootEvent (kind : Nat) : FaultReport := corrected 30 0x50 kind

/-- The registers and the state that the image gives (R450, R451, R455). -/
def loadImage (s : State) (b : Bool) : State :=
  let x := readSlot s.flash b
  let t := fwTrailer x.fw
  let c (o n : Nat) : Nat := fieldAt x.cfg o n
  let f8 := c 8 1
  let prt := f8 % 2 * 2 ^ 31 + f8 / 2 % 2 * 2 ^ 30 + f8 / 4 % 2 * 2 ^ 29 + f8 / 8 % 8 * 2 ^ 24 + c 9 1 * 2 ^ 16 + c 10 1 * 2 ^ 8 + c 11 1
  let s₁ := (s.wr aHubFwver (BitVec.ofNat 32 (fieldAt t 100 4))).wr aHubImggen (BitVec.ofNat 32 (fieldAt x.hdr 8 4))
  let s₂ := (s₁.wr aMmCfg (BitVec.ofNat 32 (c 5 1 * 256 + c 4 1 % 8))).wr aHubMode (BitVec.ofNat 32 (c 6 1 % 4))
  let s₃ := (s₂.wr aPrtCfg (BitVec.ofNat 32 prt)).setFld aTpCfg 6 0 (c 12 1)
  { s₃ with image :=
    { fw := Config.sha384 x.fw
      cfg := Config.sha384 x.cfg
      pol := Config.sha384 x.pol
      owner := Config.sha384 (x.own.take 97)
      svn := BitVec.ofNat 32 (fieldAt t 104 4)
      guestKey := if fieldAt x.pol 4 1 % 2 = 1 then some (BitVec.ofNat 384 (beNat ((x.pol.drop 8).take 48))) else none
      extWait := c 14 2 } }

/-- The identity key of the unit, checked against its certificate (R456). -/
def deriveKey (s : State) : Option (BitVec 384) :=
  match Config.pufKey s.boot.puf s.eeprom.helper with
  | some k => if Config.certNames s.eeprom.chain (Config.publicKey k) then some k else none
  | none => none

/-- The EEPROM and the identity, in the island: key store, ID_OK, certificate chain. -/
def readIdentity (s : State) : State :=
  let k := deriveKey s
  let chain := s.eeprom.chain.take 2048
  let s₁ := ({ s with boot := { s.boot with key := k } }.setBit aHubBoot 17 k.isSome).wr aHubCertlen (BitVec.ofNat 32 chain.length)
  (List.range 512).foldl (fun s i => s.wr (aHubCert i) (BitVec.ofNat 32 (fieldAt chain (4 * i) 4))) s₁

/-- PD_HUB switches on: the beat counter starts at 0, the inventory and the links' sessions are set up, and the host link
trains (R30, R36, R342, R424, R434). -/
def powerHub (s : State) (x15 : Bool) : State :=
  let s₁ := { domainOn s 16 with beat := 0, now := {}, x15Host := x15 }
  let s₂ := (s₁.setBit aHubInv 16 s.boot.guest).setFld aHubId 7 0 s.eeprom.stepping.toNat
  let s₃ := s₂.setFld aGfwState 2 0 (if s.boot.guest then gfwReset else 0)
  let s₄ := (List.range 16).foldl (fun s x =>
    ((s.wr (aLnkSession x) (s.rd (aLnkSession x) + 1)).setFld (aLnkState x) 2 0 lnkDown).setLink x (freshLink x [] {})) s₃
  hlkStart ((s₄.setLink pfl (freshLink pfl [] {})).wr aHlkSession (s.rd aHlkSession + 1))

/-- HUB_LGT shows the copies of the last-good table; without one the start runs the full promenade (R259, R286). -/
def showLgt (s : State) : State :=
  let best := bestLgt s.eeprom
  let s₁ := (s.setBit aHubLgt 27 s.eeprom.lgtA.isSome).setBit aHubLgt 26 s.eeprom.lgtB.isSome
  let s₂ := match best with
    | some (c, b) => (s₁.setBit aHubLgt 25 b).setFld aHubLgt 23 0 c.gen.toNat
    | none => s₁.report (bootEvent 2)
  { s₂ with boot := { s₂.boot with first := best.isNone } }

def toPhase (s : State) (n st : Nat) : State := setBoot { s with boot := { s.boot with phase := n, phaseAt := s.clock } } st

/-- End of phase 1: identity, slot and configuration; then the hub comes up, in POWER_UP or in NO_IMAGE (R453, R454). -/
def endImage (s : State) (f : PhaseFound) : State :=
  let s₁ := readIdentity s
  let c := chooseSlot s.flash f.readFail
  let s₂ := ((s₁.setFld aHubBoot 27 24 c.codeA).setFld aHubBoot 23 20 c.codeB).setBit aHubBoot 18 c.fallback
  let note (s : State) : State := if s.boot.key.isSome then s else s.report (bootEvent 1)
  match c.slot with
  | none => toPhase (note (powerHub s₂ false)) 0 bootNoImage
  | some b =>
    let s₃ := loadImage (s₂.setBit aHubBoot 19 b) b
    let s₄ := powerHub s₃ (s₃.bit aHlkCfg 7)
    let s₅ := showLgt (note (if c.fallback then s₄.report (bootEvent 0) else s₄))
    toPhase (if s₅.bit aPrtCfg 31 then setPrt s₅ prtPairing 1 else s₅) 2 2

/-- Phase 3: the light and the memory domains. -/
def beginLight (s : State) : State :=
  toPhase (lightStart (domainOn (domainOn (domainOn s 19) 17) 18)) 3 2

/-- Phase 4: the base dies, with their stacks in training. -/
def beginBases (s : State) : State :=
  let s₁ := (List.range 4).foldl (fun s k => domainOn s (12 + k)) s
  toPhase ((List.range 32).foldl (fun s st => setMemState s st memTraining) s₁) 4 2

/-- A stack of a base die that came up: trained, zeroed where that is due, and in service (R162, R168, R462, R463). -/
def stackUp (f : PhaseFound) (s : State) (st : StackId) : State :=
  let o : TrainOutcome := if f.stackMask.getLsbD st then .failed else if f.slowMask.getLsbD st then .speed1 else .speed2
  let s₁ := trained s st o memInService
  let s₂ := if s.boot.zeroDue then loseStack s₁ st else s₁
  let s₃ := { s₂ with boot := { s₂.boot with kept := s₂.boot.kept &&& ~~~(BitVec.ofNat 32 (2 ^ st.val)) } }
  if o = .failed then s₃ else s₃.setBit aHubMeminv st true

/-- A base die that failed its phase is off, with event 0x09 (R443). -/
def baseOut (s : State) (k : Nat) : State := (baseOff s k s.boot.zeroDue 0).report (partEvent (12 + k) k 0)

/-- Trims of the mesh elements: found anew at a first start, otherwise within 4 codes of the last-good ones (R272). -/
def findTrims (s : State) : State :=
  let v (e : Nat) : Nat := (Config.freeValue (s.freeCtr + e)).toNat
  let old (e : Nat) : Option Nat := match bestLgt s.eeprom with | some (c, _) => some (SMap.get (fun _ => 0) c.data.trims e) | none => none
  let trim (e : Nat) : Nat := match old e with | some t => t + v e % 9 - 4 | none => v e % 256
  let trims := ((List.range 832).map fun e => (e, trim e)).filter fun x => x.2 ≠ 0
  { s with freeCtr := s.freeCtr + 832, opt := { s.opt with trims := trims } }

/-- Reference positions that failed the mesh self-test (R272, R476). -/
def refsOut (f : PhaseFound) (s : State) : State :=
  (List.range 8).foldl (fun s h =>
    if f.portMask.getLsbD (120 + h) then (setRngState s (120 + h) rngDown).report (corrected 25 0x28 (1024 + 120 + h)) else s) s

/-- End of phase 4, and phase 5: the tensor dies of the base dies that are on. -/
def endBases (s : State) (f : PhaseFound) : State :=
  let s₁ := (List.range 4).foldl (fun s k => if domOn s (12 + k) && f.baseMask.getLsbD k then baseOut s k else s) s
  let s₂ := (List.finRange 32).foldl (fun s st => if domOn s (12 + st.val / 8) then stackUp f s st else s) s₁
  let s₃ := refsOut f (findTrims { s₂ with boot := { s₂.boot with zeroDue := false } })
  toPhase ((List.finRange 12).foldl (fun s d => if domOn s (12 + d.val / 3) then dieOn s d else s) s₃) 5 2

/-- A port whose rings the promenade finds: its die or base die is on. External ports find their transmit rings. -/
def portPresent (s : State) (p : Nat) : Bool :=
  if p < 96 then domOn s (p / 8) else if 116 ≤ p && p < 120 then domOn s (p - 104) else true

/-- End of phase 5, and phase 6: ports search. -/
def endDies (s : State) (f : PhaseFound) : State :=
  let s₁ := (List.finRange 12).foldl (fun s d =>
    if !domOn s d.val then s
    else if f.dieMask.getLsbD d.val then (dieOff s d tdOff 0).report (partEvent d d 0)
    else if tdState s d = tdInit then setTdState (initSram s d) d tdServe
    else s) s
  let searching (p : Nat) : Bool := portPresent s₁ p && !isXPort p && rngState s₁ p ≠ rngDown
  toPhase ((List.range 132).foldl (fun s p => if searching p then setRngState s p rngSearch else s) s₁) 6 3

/-- A ring after promenade: locked at its code, with the table's coefficients (R257, R259). -/
def foundRing (s : State) (lgt : Option LgtData) (p n : Nat) (found : Bool) : Ring :=
  let v := (Config.freeValue (s.freeCtr + n)).toNat
  let fresh : Ring := { lock := if found then foundCode v (lgt.bind fun t => tableCentre s t p n) else 0 }
  match lgt.bind fun t => t.rings.find? fun e => e.1 = n with
  | some (_, _, co, kn) => { fresh with coeff := co, known := kn }
  | none => fresh

/-- A port after promenade goes to its margin test: a base-die link's end in its base die in loop mode, the hub's end after it
(R273, R274). -/
def beginStartTest (s : State) (p : Nat) : State :=
  if rngState s p ≠ rngSearch || (128 ≤ p && rngState s (p - 12) = rngTest) then s
  else setRngState s p (if 116 ≤ p && p < 120 then rngTest else rngMargin)

/-- A port's registers after promenade: rings locked, heaters at their codes, suspect marks of the table. -/
def showRings (lgt : Option LgtData) (s : State) (p : Nat) : State :=
  let s₁ := (s.wr (aRngLock p) 0x3FFFF).wr (aRngRxlock p) (if isXPort p then 0 else 0x3FFFF)
  let s₂ := match lgt with
    | some t => s₁.wr (aRngSuspect p) (SMap.get (fun _ => (0, 0, 0, 0)) t.sets p).2.2.1
    | none => s₁
  (List.range 18).foldl (fun s l =>
    setHeater (setHeater s p true l (s.ring (ringNo p true l)).lock) p false l (s.ring (ringNo p false l)).lock) s₂

/-- End of phase 6: the rings are found, and what the last-good table holds is in force; phase 7: margin tests. -/
def endPromenade (s : State) : State :=
  let lgt := (bestLgt s.eeprom).map fun c => c.1.data
  let fresh : Ring := {}
  let ringsOf (p : Nat) : List (Nat × Ring) :=
    if portPresent s p then
      (List.range 36).map fun i => (36 * p + i, foundRing s lgt p (36 * p + i) (i < 18 || !isXPort p))
    else []
  let rings := ((List.range 132).flatMap ringsOf).filter fun e => e.2 ≠ fresh
  let o := s.opt
  let s₁ := { s with
    freeCtr := s.freeCtr + 4752
    opt := { o with
      rings := rings
      lanes := match lgt with | some t => t.lanes | none => o.lanes
      phases := match lgt with | some t => t.phases | none => o.phases } }
  let s₂ := (List.range 132).foldl (fun s p => if portPresent s p then showRings lgt s p else s) s₁
  let s₃ := (List.range 132).foldl beginStartTest (s₂.setBit aHubLgt 24 lgt.isNone)
  toPhase ((List.range 8).foldl (fun s h => setPartner s (120 + h) (120 + (h + 1) % 8)) s₃) 7 4

/-- A port's margin test at start: its own result where MARGIN_TEST_DONE has brought one, otherwise all lanes at PAM4, or none
(R275, R276). The hub end of a base-die link passes only against an end that has passed (R273). -/
def startMargin (f : PhaseFound) (s : State) (p : Nat) : State :=
  if f.portMask.getLsbD p || (128 ≤ p && rngState s (p - 12) ≠ rngUp) then marginDone s p (some 0) (some 0) none else marginDone s p none (some 0x3FFFF) none

/-- A tensor die after the margin tests: in service with all eight ports up, otherwise RETIRED with its domain on (R443). -/
def placeDie (s : State) (d : DieId) : State :=
  if tdState s d ≠ tdServe then s
  else if portsUp s d then s.setBit aHubInv d true
  else { setTdState s d tdRetired with leftOut := s.leftOut ||| BitVec.ofNat 12 (2 ^ d.val) }.report (partEvent d d 0)

/-- A base die whose port has not passed its margin test (R36, R443). -/
def placeBase (s : State) (k : Nat) : State :=
  if !domOn s (12 + k) || rngState s (116 + k) = rngUp then s else s.report (partEvent (12 + k) k 0)

/-- The order of the margin tests of a start: reference positions, base-die links, and then the ports (R273, R275). -/
def testOrder : List Nat := (List.range 8).map (120 + ·) ++ (List.range 4).map (116 + ·) ++ (List.range 4).map (128 + ·) ++ testedPorts

/-- End of phase 7, and phase 8: the reference positions are no longer in use. -/
def endMargin (s : State) (f : PhaseFound) : State :=
  let s₁ := testOrder.foldl (startMargin f) s
  let s₂ := (refsPassed s₁).foldl (fun s h => setRngState s h rngUp) s₁
  toPhase ((List.range 4).foldl placeBase ((List.finRange 12).foldl placeDie s₂)) 8 5

/-- Every external port whose peer R357 assigns and MODS names is UP, or EXT_WAIT has passed in phase 8 (R445). -/
def externalOver (s : State) : Bool :=
  decide (s.boot.phaseAt + s.image.extWait * 1000000000 ≤ s.clock) ||
    (List.range 14).all fun x => !s.bit aMmCfg (8 + (ownModule s + x / 2 + 1) % 8) || lnkState s x = lnkUp

/-- Milliseconds from the start's beginning until now (R469). -/
def startTime (s : State) : Nat := min 65535 ((s.clock - s.boot.began) / 1000000000)

/-- End of phase 8: READY, once its wait is over and alignment with the peers that are UP has ended; the last-good table is then
written (R260, R445). -/
def endExternal (s : State) : State :=
  if alignState s = 1 || !externalOver s then s
  else startLgt (toPhase (s.setFld aHubBoot 15 0 (startTime s)) 0 bootReady)

/-- HUB_BOOT.STATE while a phase runs (R442). -/
def phaseState (n : Nat) : Nat := if n = 1 then 1 else if n ≤ 5 then 2 else n - 3

/-- START_PHASE_DONE: the phase in progress ends; phase 1 reads the flash, which is in reset at first (R581). With the fatal latch set the start ends after phase 2, in FAULTED (R464). -/
def startPhaseDone (s : State) (f : PhaseFound) : State :=
  let n := s.boot.phase
  if n = 0 ∨ bootState s ≠ phaseState n then s
  else match n with
    | 1 => if s.pins.xspiReset.isSome then s else endImage s f
    | 2 => if fatalLatched s then toPhase s 0 bootFaulted else beginLight s
    | 3 => beginBases s
    | 4 => endBases s f
    | 5 => endDies s f
    | 6 => endPromenade s
    | 7 => endMargin s f
    | _ => endExternal s

def execStartPhaseDone (f : PhaseFound) (s : State) : Host.Outcome State Fault Refusal := .next (startPhaseDone s f)

/-- The module drives XSPI_CS_N low: it is in phase 1 or runs an operation of HUB_FLASHCTL (R581). -/
def xspiSelected (s : State) : Bool := s.boot.phase = 1 || s.boot.flashOp.isSome

/-- Bytes that the baseboard has programmed over the xSPI pins, which it may drive while the module does not use them (R581). -/
def baseboardWrites (s : State) (w : List (BitVec 25 × Byte)) : State :=
  if s.boot.island && xspiSelected s then s
  else { s with flash := w.foldl (fun f x => SMap.set flashDefault f x.1.toNat x.2) s.flash }

/-- START: main power is good and RST_N released (R441). XSPI_RST_N goes low (R581). -/
def startModule (s₀ : State) (guest : Bool) (found : StartFound) : State :=
  let s := baseboardWrites s₀ found.flashed
  if !s.boot.island || bootState s ≠ 0 || decide (s.clock < s.boot.startFrom) then s
  else
    let s₁ := { s with
      pins := { s.pins with xspiReset := some s.clock }
      boot := { s.boot with phase := 1, began := s.clock, phaseAt := s.clock, guest := guest, puf := found.puf, key := none } }
    let s₂ := s₁.wr aHubBoot (BitVec.ofNat 32 (0x1FF00000 + if s.boot.warm then 0x10000 else 0))
    (s₂.wr aHubFwver 0).wr aHubImggen 0

def execStart (guest : Bool) (found : StartFound) (s : State) : Host.Outcome State Fault Refusal :=
  .next (startModule s guest found)

/-! ### Resets and power (R440, R462, R463, R575, R579, R580) -/

/-- A warm reset: every stack in service enters self-refresh, and everything outside the island resets (R463, R465). -/
def warmReset (s : State) : State :=
  let s₁ := resetModule (selfRefresh s (BitVec.allOnes 32))
  { s₁ with boot := { s₁.boot with warm := true, startFrom := s.clock + 1000000000 } }

/-- The island's reset at a cold start: nothing of the registers is left; the EEPROM, the flash and what lies outside the module
stay, and so do the session numbers, each of which follows its previous one (R342, R424). -/
def coldReset (s : State) : State :=
  let s₁ := keptContacts s
    { State.reset with
      pending := s.pending
      clock := s.clock
      lag := s.lag
      freeCtr := s.freeCtr
      eeprom := s.eeprom
      flash := s.flash }
  { s₁ with boot := { s₁.boot with island := false } }

/-- STANDBY_POWER_GOOD: the island leaves its reset. -/
def execStandbyPowerGood (s : State) : Host.Outcome State Fault Refusal :=
  .next { s with boot := { s.boot with island := true, startFrom := s.clock + 10000000000 } }

/-- STANDBY_POWER_LOSS: an absence below 100 ms causes no reset. -/
def execStandbyPowerLoss (ms : Nat) (s : State) : Host.Outcome State Fault Refusal := .next (if ms < 100 then s else coldReset s)

/-- RST_N_ASSERT: a pulse below 100 ns is ignored, one of 1 µs or more is a warm reset; between them the spec does not say, and a
free value decides. -/
def execRstNAssert (ns : Nat) (s : State) : Host.Outcome State Fault Refusal :=
  .next (if !s.boot.island ∨ ns < 100 then s
    else if 1000 ≤ ns then warmReset s
    else if s.free.toNat % 2 = 0 then s.tookFree
    else warmReset s.tookFree)

/-- MAIN_POWER_LOSS: the module's state is lost, the stacks with it; a main cycle follows (R462, R467, R568). -/
def execMainPowerLoss (s : State) : Host.Outcome State Fault Refusal :=
  let s₁ := resetModule { s with boot := { s.boot with kept := 0 }, light := { s.light with lb6Off := false } }
  .next { s₁ with boot := { s₁.boot with warm := false, zeroDue := true } }

/-! ### HUB_RST (R466, R470) -/

/-- QUIESCE: the external ports darken and the module is QUIESCING; refused while a context is not EMPTY. -/
def quiesce (s : State) : Option State :=
  if allEmpty s then some (setBoot ((List.range 16).foldl (fun s x => writeEyeCtl s x 1) s) bootQuiescing) else none

/-- QUIESCED: the domains are off, the stacks in self-refresh. -/
def execQuiesced (s : State) : Host.Outcome State Fault Refusal :=
  .next (if bootState s = bootQuiescing then setBoot (resetModule (selfRefresh s (BitVec.allOnes 32))) bootQuiesced else s)

end Sys2Proof.Machine
end

