-- ==== Sys2Proof/Machine/RegRead.lean ====
section
/-! DEFINITION. Reading a register: what answers at an address, the values that follow from the rest of the state, read-clear
fields, checked words, and the latch of a pair (R6 to R12, R551 to R558, R564). -/
namespace Sys2Proof.Machine

/-! ### Requesters (R557) -/

/-- Master code of a requester (R481). -/
def masterOf : Requester → Nat
  | .host _ => 9 | .i3c => 10 | .core => 13

/-- Number of a requester's latch (R564). -/
def latchNo : Requester → Nat
  | .host ch => ch.val | .i3c => 4 | .core => 5

/-- An access error is reported with the requester's master code and the management address (R7, R481, R552). -/
def accessFail (s : State) (q : Requester) (a : Nat) : State :=
  s.report { accessError (masterOf q) with space := 4, addr := BitVec.ofNat 48 a }

/-! ### What holds a register (R102, R551, R553) -/

/-- Die of a register of a tensor-die block or of a die's debug block. -/
def regDie (a : Nat) : Nat := if a < 0x7000000 then (a - 0x1000000) / 0x100000 else (a - 0x7010000) / 0x1000

/-- The register's holder has power. -/
def regOn (s : State) (r : RegRow) (a : Nat) : Bool :=
  match r.home with
  | .stby | .stbyro => true
  | .hub | .hubcopy => domOn s 16
  | .td => domOn s (regDie a)
  | .pb => domOn s (12 + (a - 0x2000000) / 0x100000)
  | .light => domOn s 19

/-! ### Values that follow from the rest of the state -/

/-- A register's stored value with one field replaced. -/
def withFld (s : State) (a hi lo v : Nat) : Word := setF (s.rd a) hi lo v

/-- Codes of TD_CALLSTATE.STATE (R159). -/
def callCode : CallSt → Nat
  | .idle => 0 | .fetch => 1 | .floor => 2 | .running => 3 | .wait => 4 | .halted => 5 | .held => 6 | .switching => 7

/-- A register of Caller `k` of a die, at offset `o` of its block (R159): of the context that the Caller holds. -/
def callView (s : State) (d : DieId) (k : CallerId) (o : Nat) : Word :=
  let q := s.caller d k
  match q.ctx with
  | none => 0
  | some c =>
    let cc := s.cc d k c
    let v := (s.slipBeat d k c).1
    let n : Nat := match o with
      | 0x00 => (if q.st = .held then cc.figerr.val * 2 ^ 20 else 0) + c.val * 2 ^ 14 + callCode q.st
      | 0x04 => cc.pc.toNat
      | 0x08 => cc.anchor.toNat % 2 ^ 32
      | 0x0C => cc.anchor.toNat / 2 ^ 32
      | 0x10 => cc.slip.last
      | 0x14 => v.max
      | 0x18 => v.sum
      | 0x1C => v.wait * 2 ^ 20 + v.ack * 2 ^ 10 + v.floor
      | 0x20 => v.fetch
      | _ => 0
    BitVec.ofNat 32 n

/-- Slip counters with the fields of the register at offset `o` taken from others. -/
def slipTake (v from' : Slip) (o : Nat) : Slip :=
  match o with
  | 0x14 => { v with max := from'.max }
  | 0x18 => { v with sum := from'.sum }
  | 0x1C => { v with wait := from'.wait, ack := from'.ack, floor := from'.floor }
  | 0x20 => { v with fetch := from'.fetch }
  | _ => v

/-- A read of a slip counter clears the copy of the context that the Caller holds to what the present beat has counted
(R12, R159). -/
def callClear (s : State) (d : DieId) (k : CallerId) (o : Nat) : State :=
  match (s.caller d k).ctx with
  | none => s
  | some c =>
    let cc := s.cc d k c
    let b := s.slipBeat d k c
    let s₁ := s.setCc d k c { cc with slip := slipTake cc.slip b.2 o }
    if (SMap.get (fun _ => none) s.now.slips (cctxNo d k c)).isNone then s₁
    else { s₁ with now := { s₁.now with
        slips := SMap.set (fun _ => none) s₁.now.slips (cctxNo d k c) (some (slipTake b.1 {} o, b.2)) } }

/-- Flits of the running SEND of a Caller wait for a port that is down, or for an external port that is down or in its grace
period: in the die's transmit buffer, or at the external port (R101). -/
def sendHeld (s : State) (d : DieId) (p : Nat) (k : CallerId) : Bool :=
  match (s.caller d k).run with
  | none => false
  | some r =>
    figOp r.fig = 5 &&
      let v := sendDesc r.desc
      let o := some (originOf d k r)
      let waits (x : Nat) : Bool := !lnkAlive s x || s.bit (aLnkState x) 8
      let away := ((planEntry s (activeBank s) v.entry).dsts.filter fun x => 16 ≤ x).map (· - 16)
      ((away.any waits || rngState s (8 * d.val + p) ≠ rngUp) && (s.txq v.entry).any fun f => f.origin = o && f.ports.getLsbD p) ||
        (v.ports.testBit p && away.any fun x => waits x && ((s.link x).planq.any (fun f => f.origin = o) ||
          (s.link x).buf.any fun f => f.origin = o))

/-- TD_PORTSTAT (R109). -/
def portStat (s : State) (d : DieId) (p : Nat) : Word :=
  let q := 8 * d.val + p
  let up := rngState s q = rngUp
  let held := (List.finRange 4).any fun k => sendHeld s d p k
  BitVec.ofNat 32 ((if up then s.fld (aRngState q) 20 16 * 2 ^ 16 else 0) + portMode s q * 2 ^ 8 + (if held then 2 else 0) +
    if up then 1 else 0)

/-- LNK_RXSEQ (R354): the highest number held, and EXP − 1. -/
def rxSeqView (k : XLink) : Word :=
  let top := k.held.foldl (fun (m : BitVec 16) h => if (h.1 - k.exp).toNat < 2 ^ 15 && (m - k.exp + 1).toNat ≤ (h.1 - k.exp).toNat + 1
    then h.1 else m) (k.exp - 1)
  top ++ (k.exp - 1)

/-- Flits of a VC that may be sent now (R354). -/
def creditNow (v : Chan) : BitVec 16 := if hasCredit v then BitVec.ofNat 16 (min (v.credit - v.sent).toNat 0xFFFF) else 0

/-- LNK_SEQ, LNK_RXSEQ and LNK_CREDIT: 0 while the link holds no session (R342, R354). -/
def linkView (s : State) (x o : Nat) : Option Word :=
  let k := s.link x
  let v (w : Word) : Option Word := some (if k.holds then w else 0)
  match o with
  | 0x14 => v (k.next ++ k.acked)
  | 0x18 => v (rxSeqView k)
  | 0x1C => v (creditNow (k.chan 1) ++ creditNow (k.chan 0))
  | _ => none

/-- TP_DOM with TEMP: the governed temperature of a die's domain, rounded down, the highest own sensor of another (R503,
R520). -/
def domView (s : State) (d : Nat) : Word :=
  let own := (domSensors d).map (sensorReading s)
  let t : Int := if d < 12 then governedTemp s d else own.foldl max (own.headD 0)
  withFld s (aTpDom d) 31 24 (min (t / 16).toNat 255)

/-- The view of a register of the tensor-die block of die `d` at offset `o`, where its value is not stored. -/
def dieView (s : State) (d : DieId) (o : Nat) : Option Word :=
  if o = 0x200 then
    let n := (tagsInUse s d).length
    some (setF (withFld s (aTdMvstat d) 8 0 n) 24 16 (max n (s.fld (aTdMvstat d) 24 16)))
  else if 0x300 ≤ o ∧ o < 0x320 then some (portStat s d ((o - 0x300) / 4))
  else if 0x2000 ≤ o ∧ o < 0x2100 then some (callView s d (Fin.ofNat 4 ((o - 0x2000) / 0x40)) (o % 0x40))
  else none

/-- PB_MEMSTAT with TEMP: what the readout of a stack that is not OFF gives (R171). -/
def memstatView (s : State) (st : Nat) : Word :=
  let a := aPbMemstat (st / 8) (st % 8)
  if memState s st = memOff then s.rd a else withFld s a 15 8 (Config.stackTemp st s.clock).toNat

/-- What a register reads as: its stored value, or what the state makes of it. -/
def regView (s : State) (a : Nat) : Word :=
  if a = aHubSlot then BitVec.ofNat 32 (s.beat.toNat / 32)
  else if a = aHubInv then s.now.inv
  else if a = aHubMeminv then s.now.meminv
  else if 0x800 ≤ a ∧ a < 0x820 then acellBusy s ((a - 0x800) / 4)
  else if 0x2000 ≤ a ∧ a < 0x3000 ∧ a % 0x40 = 0 then withFld s a 21 16 (onCall s (Fin.ofNat 64 ((a - 0x2000) / 0x40)))
  else if a = aPrtState then setF (s.rd a) 3 3 (if clean s then 1 else 0)
  else if a = aMcStat then withFld s a 26 16 s.mc.length
  else if 0x1000000 ≤ a ∧ a < 0x1C00000 then
    (dieView s (Fin.ofNat 12 ((a - 0x1000000) / 0x100000)) (a % 0x100000)).getD (s.rd a)
  else if 0x2000000 ≤ a ∧ a < 0x2400000 ∧ a % 0x100000 = 0x160 then
    let n := (tagsOf s ((a - 0x2000000) / 0x100000)).length
    setF (withFld s a 10 0 n) 26 16 (max n (s.fld a 26 16))
  else if 0x2000000 ≤ a ∧ a < 0x2400000 ∧ 0x100 ≤ a % 0x100000 ∧ a % 0x100000 < 0x120 then
    memstatView s (8 * ((a - 0x2000000) / 0x100000) + (a % 0x100000 - 0x100) / 4)
  else if 0x4000000 ≤ a ∧ a < 0x4100000 then (linkView s ((a - 0x4000000) / 0x10000) (a % 0x10000)).getD (s.rd a)
  else if a = aFltTstat then tstat s
  else if a = aFltStatus3 then setF (s.rd a) 28 28 (if !hostUp s && s.flt.timers.any (fun e => e.2.isSome) then 1 else 0)
  else if aTpDom 0 ≤ a ∧ a ≤ aTpDom 19 then domView s ((a - aTpDom 0) / 4)
  else if a = aHlkRetq then withFld s a 12 0 s.retq.length
  else s.rd a

/-! ### What a read does (R10, R159, R482) -/

/-- What read-clear fields read as: their values before the counts of the present beat (R12). -/
def rcView (s : State) (r : RegRow) (a : Nat) (v : Word) : Word :=
  if (SMap.get (fun _ => none) s.now.counts a).isNone then v else (v &&& ~~~(r.mask .rc)) ||| ((s.rcBeat a).old &&& r.mask .rc)

/-- Read-clear fields go back to their reset values, plus what the present beat has counted (R12). -/
def readClear (s : State) (r : RegRow) (a : Nat) : State :=
  if 0x1000000 ≤ a ∧ a < 0x1C00000 ∧ 0x2000 ≤ a % 0x100000 then
    callClear s (Fin.ofNat 12 ((a - 0x1000000) / 0x100000)) (Fin.ofNat 4 ((a % 0x100000 - 0x2000) / 0x40)) (a % 0x40)
  else
    let m := r.mask .rc
    if m = 0 then s
    else match SMap.get (fun _ => none) s.now.counts a with
      | none => s.wr a ((s.rd a &&& ~~~m) ||| (r.resetVal &&& m))
      | some b =>
        { s with now := { s.now with
            counts := SMap.set (fun _ => none) s.now.counts a (some { b with old := (b.old &&& ~~~m) ||| (r.resetVal &&& m) }) } }.wr
          a ((s.rd a &&& ~~~m) ||| (b.add &&& m))

/-- Words that carry check bits are checked as they are read (R476, R482). -/
def readCheck (s : State) (a : Nat) : State :=
  if 0x400000 ≤ a ∧ a < 0xC00000 then s.hubCheck hubPlan a
  else if 0x10000 ≤ a ∧ a < 0x18000 then s.hubCheck hubSync a
  else if 0x5000100 ≤ a ∧ a < 0x5000300 then checkEntry s ((a - 0x5000100) / 0x20) a
  else if 0x5000040 ≤ a ∧ a < 0x5000058 then checkEntry s 16 a
  else s

/-- The lower word of a pair that is read through a latch (R527, R564). -/
def pairLow (a : Nat) : Bool :=
  (0x1000000 ≤ a && a < 0x1C00000 && 0x2000 ≤ a % 0x100000 && a % 0x40 = 0x08) ||
    (0x2000 ≤ a && a < 0x3000 && [0x08, 0x10, 0x18, 0x20, 0x28].contains (a % 0x40)) ||
    (0x7010000 ≤ a && a < 0x701C000 &&
      (a % 0x1000 = 0x1B0 || a % 0x1000 = 0x20 || (0x100 ≤ a % 0x1000 && a % 0x1000 < 0x1B0 && a % 8 = 0))) ||
    (0x7080000 ≤ a && a < 0x7090000 && a % 0x40 < 0x30 && a % 8 = 0) ||
    a = aFltFe2 || (0x5000100 ≤ a && a < 0x5000300 && a % 0x20 = 0)

def latchOf (s : State) (q : Requester) : Option (Nat × Word) := SMap.get (fun _ => none) s.latches (latchNo q)
def setLatch (s : State) (q : Requester) (l : Option (Nat × Word)) : State :=
  { s with latches := SMap.set (fun _ => none) s.latches (latchNo q) l }

/-- The value that a requester reads: the latched upper word of the pair whose lower word it read last, or the present one. -/
def latchRead (s : State) (q : Requester) (a : Nat) : State × Word :=
  if pairLow a then (setLatch s q (some (a + 4, regView s (a + 4))), regView s a)
  else match latchOf s q with
    | some (b, v) => if b = a then (setLatch s q none, v) else (s, regView s a)
    | none => (s, regView s a)

/-- A register is read: the state after, the value, and whether the read is no access error. -/
def regRead (s : State) (q : Requester) (a : Nat) : State × Word × Bool :=
  if a % 4 ≠ 0 then (accessFail s q a, 0, false)
  else match regAt a with
    | none => (accessFail s q a, 0, false)
    | some r =>
      if !regOn s r a then (s, 0, true)
      else
        let (s₁, v) := latchRead s q a
        (readCheck (readClear s₁ r a) a, rcView s r a v, true)

/-! ### What I3C reaches (R558) -/

/-- Registers that the baseboard management controller may read. -/
def i3cReads (a : Nat) : Bool :=
  [aHubId, aHubInv, aHubMeminv, aMmCfg, aHubBoot, aHubFwver, aHubImggen, aFltTstat, aFltAck, aFltErrn].contains a ||
    (0x2000000 ≤ a && a < 0x2400000 && 0x100 ≤ a % 0x100000 && a % 0x100000 < 0x120) ||
    (0x4000000 ≤ a && a < 0x4100000 && a % 0x10000 = 0x2000) ||
    (aFltStatus0 ≤ a && a ≤ aFltStatus3) || (aFltFe0 ≤ a && a ≤ aFltFe5) || (0x6000000 ≤ a && a < 0x6000820)

/-- The bits of a register that it may write. -/
def i3cWrites (a : Nat) : Option Word :=
  if a = aFltAck then some 0xFFFFFFFF
  else if a = aFltErrn then some 0x80000000
  else if a = aTpCfg then some (fieldMask 28 16)
  else none

end Sys2Proof.Machine
end

