-- ==== Sys2Proof/Machine/DebugRun.lean ====
section
/-! DEFINITION. Samples, the reel's control and export, the progress watchdog and the hang dump (R523 to R540). -/
namespace Sys2Proof.Machine

/-! ### Samples (R526) -/

/-- One Caller's sample: its CUR, or LAST for a figure that launched in the beat of the sample, with the sample beat. -/
def sampleSet (s : State) (d k : Nat) : State :=
  let now : Word := s.beat.truncate 32
  let src := if s.bit (aDbgSetInfo d k 0) 31 && s.rd (aDbgSetBeat d k 0) = now then 1 else 0
  (copySet s d k src 2).wr (aDbgSetBeat d k 2) now

/-- DBG_SAMPLE.GO: the die's counters and each Caller's CUR, in one beat. -/
def sampleDie (s : State) (d : Nat) : State :=
  let s₁ := (List.range 6).foldl (fun s j => s.wr64 (aDbgDsmp d j 0) (s.rd64 (aDbgDcnt d j 0))) s
  (List.range 4).foldl (fun s k => sampleSet s d k) (s₁.wr64 (aDbgDsmpbeat d 0) s.beat)

/-! ### The reel's control (R531 to R534, R547) -/

/-- A write of DBG_REELCTL; none where it is refused: MODE 3, or a new MODE or POST while EN is 1. -/
def writeReelctl (s : State) (d : DieId) (v : Word) : Option State :=
  let a := aDbgReelctl d
  let was := s.bit a 31
  let changes := getF v 29 28 ≠ s.fld a 29 28 ∨ getF v 15 0 ≠ s.fld a 15 0
  if getF v 29 28 = 3 ∨ (was ∧ changes) then none
  else
    let fields (s : State) : State :=
      (((s.setBit a 31 (v.getLsbD 31)).setBit a 30 (v.getLsbD 30)).setFld a 29 28 (getF v 29 28)).setFld a 15 0 (getF v 15 0)
    if v.getLsbD 31 && !was then
      some (fields ((((s.setReel d {}).wr (aDbgReelptr d) 0).setBit a 27 false).setBit a 26 false))
    else if !v.getLsbD 31 && was then
      let s₁ := reelFlush s d
      some (fields (s₁.setReel d { s₁.reel d with buf := [], post := none }))
    else some (fields s)

/-- FORCE: a trigger with no record (R533). -/
def forceTrigger (s : State) (d : DieId) : State :=
  reelSettle s (triggerAt s d s.beat 0 0 0 0 0 0 0 (s.fld (aDbgReelptr d) 15 0) false) d

/-- REEL_FLUSH: no record has arrived for 2 µs, and the line that is not full is written with padding. -/
def execReelFlush (d : DieId) (s : State) : Host.Outcome State Fault Refusal := .next (reelFlush s d)

/-! ### Export (R534) -/

/-- Lines at the head of the export buffer that one TRACE message takes: of one die, consecutive, at most `n`. -/
def traceRun : Nat → List ExportLine → List ExportLine
  | 0, _ => []
  | _, [] => []
  | n + 1, x :: xs =>
    match xs with
    | y :: _ => if n ≠ 0 ∧ y.die = x.die ∧ y.idx = (x.idx + 8) % 65536 then x :: traceRun n xs else [x]
    | [] => [x]

/-- A TRACE message with the lines at the head of the buffer and the lines dropped since the last one of their die. Each line
takes an upward place of its base die's link, which the slot must leave to class 6 (R213). -/
def traceExport (s : State) : State :=
  match s.dbg.exportBuf with
  | [] => s
  | x :: xs =>
    let free := s.places6 (x.die.val / 3)
    if !hostUp s || free = 0 then s
    else
      let ls := traceRun (min 8 free) (x :: xs)
      let zero : Nat → Nat := fun _ => 0
      let lost := min 255 (SMap.get zero s.dbg.exportDrop x.die)
      let s₀ := s.take6 (x.die.val / 3) ls.length
      let s₁ : State :=
        { s₀ with dbg := { s.dbg with
            exportBuf := (x :: xs).drop ls.length
            exportDrop := SMap.set zero s.dbg.exportDrop x.die 0 } }
      (s₁.count aDbgExpstat 15 0 ls.length).toHost (.trace x.die lost x.idx (ls.flatMap (·.data)))

def execTraceExport (s : State) : Host.Outcome State Fault Refusal := .next (traceExport s)

/-! ### The dump's sections (R538, R539) -/

/-- The figure at a Caller's PC: as fetched, or as the table in SRAM holds it. -/
def figureAtPc (s : State) (d : DieId) (k : CallerId) (c : CtxId) : List Byte :=
  let f := figureAt s d k c
  let cc := s.cc d k c
  if f ≠ [] then f
  else if cc.table.getLsbD 31 then s.bytes (sramPa d (getF cc.table 26 0 + 32 * cc.pc.toNat)) 32
  else haltFigure c

/-- A Caller record. -/
def dumpCaller (s : State) (d : DieId) (k : CallerId) : List Byte :=
  let q := s.caller d k
  if !domOn s d then List.replicate 128 0
  else match q.ctx with
    | none => List.replicate 128 0
    | some c =>
      let cc := s.cc d k c
      let f := figureAtPc s d k c
      let n := callerNo d k
      let flags := (if cc.waitReg then 1 else 0) + (if cc.xfer.isSome then 2 else 0) + (if s.dbg.expired.contains n then 4 else 0)
      let wait := if cc.waitReg then (figWaitIdx f).val + (figWaitThr f).toNat * 2 ^ 12 else 0
      let idle := min (SMap.get (fun _ => 0) s.dbg.idleBeats n) (2 ^ 32 - 1)
      padTo 128 ([BitVec.ofNat 8 (callCode q.st), BitVec.ofNat 8 c.val, BitVec.ofNat 8 (if q.st = .held then cc.figerr.val else 0),
          BitVec.ofNat 8 flags] ++ leBytes 4 cc.pc.toNat ++ leBytes 8 cc.anchor.toNat ++ leBytes 8 (cc.anchor.toNat + figOffset f) ++
        leBytes 4 wait ++ leBytes 4 idle ++ padTo 32 f ++ leBytes 4 (if cc.xfer.isSome then figDp f 0 else 0) ++
        leBytes 4 (match cc.xfer with | some x => x.seg | none => 0))

def dumpCallers (s : State) : List Byte := allCallers.flatMap fun p => dumpCaller s p.1 p.2

/-- Beats since an issue, in 4 bytes. -/
def sinceBeat (s : State) (b : BitVec 64) : List Byte := leBytes 4 (min (s.beat - b).toNat (2 ^ 32 - 1))

/-- A mover-tag record of a die. A segment moves its data when it completes, and one of another module is partly done once an
answer has arrived. -/
def dumpTag (s : State) (d : DieId) (t : Fin 256) : List Byte :=
  match s.segs.find? fun g => g.die = d ∧ g.tag = some t with
  | some g =>
    let left := (s.remotes.filter fun r => match r.what with
      | .segment rd rk rc ri _ _ => rd = g.die && rk = g.caller && rc = g.ctx && ri = g.idx
      | _ => false).length
    let partly := decide (0 < left ∧ left < (g.len + 2047) / 2048)
    [if partly then 2 else 1, BitVec.ofNat 8 g.caller.val, BitVec.ofNat 8 g.ctx.val,
      (match g.dir.val with | 0 => 1 | 1 => 2 | _ => 0)] ++ leBytes 4 g.pc.toNat ++ leBytes 4 g.idx ++ sinceBeat s g.issued
  | none =>
    match (List.finRange 4).find? fun k => match (s.caller d k).run with | some r => r.sendTag = some t | none => false with
    | some k =>
      match (s.caller d k).run with
      | some r =>
        let next := match r.work with | .send n => n | _ => 0
        [if next = 0 then 1 else 2, BitVec.ofNat 8 k.val, BitVec.ofNat 8 r.ctx.val, 3] ++ leBytes 4 r.pc.toNat ++ leBytes 4 0 ++
          sinceBeat s r.launch
      | none => List.replicate 16 0
    | none => List.replicate 16 0

def dumpTags (s : State) : List Byte := (List.finRange 12).flatMap fun d => (List.finRange 256).flatMap fun t => dumpTag s d t

/-- A read-tag record of a base die. -/
def dumpRead (s : State) (k t : Nat) : List Byte :=
  match (tagsOf s k).find? fun r => r.tag.val = t with
  | some r =>
    [1, BitVec.ofNat 8 r.requester.val, BitVec.ofNat 8 (r.st.val % 8), 0] ++ leBytes 4 (stackPa r.st.val r.offset.toNat / 128) ++
      leBytes 4 r.bytes ++ sinceBeat s r.issued
  | none => List.replicate 16 0

def dumpReads (s : State) : List Byte := (List.range 4).flatMap fun k => (List.range 1024).flatMap fun t => dumpRead s k t

def dumpSyncs (s : State) : List Byte :=
  (List.range 4096).flatMap fun i => leBytes 8 (s.fld (aHubSyncval i) 19 0 + s.fld (aHubSynccfg i) 15 0 * 2 ^ 32)

def dumpWaiters (s : State) : List Byte :=
  (List.finRange 64).flatMap fun i => match s.waiters.find? fun w => w.slot = i with
    | some w =>
      padTo 16 ([1, BitVec.ofNat 8 w.slot.val] ++ leBytes 2 w.obj.val ++ leBytes 4 w.thr.toNat ++ [BitVec.ofNat 8 w.ctx.val])
    | none => List.replicate 16 0

def cellCode : CellSt → Byte
  | .free => 0 | .collecting => 1 | .done => 2

def dumpCells (s : State) : List Byte :=
  (List.range 256).flatMap fun i =>
    let c := s.cell i
    padTo 32 ([cellCode c.st, c.count] ++ List.replicate 6 0 ++ leBytes 6 c.tag.toNat ++ List.replicate 2 0 ++ leBytes 4 c.value.toNat) ++
      leBytes 32 c.posts.toNat

/-- A record of a die's ring: as buffered, or as its SRAM holds it. -/
def ringRecord (s : State) (d : DieId) (i : Nat) : List Byte :=
  match (s.reel d).buf.find? fun e => e.1 = i with
  | some e => e.2
  | none => s.bytes (sramPa d (reelBase + 16 * i)) 16

/-- The last 4,096 records of a die's ring, oldest first, EMPTY in front. -/
def dumpReel (s : State) (d : DieId) : List Byte :=
  let n := min 4096 (s.reel d).total
  let next := s.fld (aDbgReelptr d) 15 0
  List.replicate (16 * (4096 - n)) 0 ++ (List.range n).flatMap fun i => ringRecord s d ((next + 65536 - n + i) % 65536)

def dumpReels (s : State) : List Byte := (List.finRange 12).flatMap fun d => dumpReel s d

/-- Sections 2 to 7: offset and content. -/
def dumpSections (s : State) : List (Nat × List Byte) :=
  [(0x3000, dumpTags s), (0x10000, dumpReads s), (0x20000, dumpSyncs s), (0x28000, dumpWaiters s), (0x29000, dumpCells s),
    (0x40000, dumpReels s)]

/-- Offsets and lengths of the seven sections. -/
def dumpTable : List (Nat × Nat) :=
  [(0x1000, 6144), (0x3000, 49152), (0x10000, 65536), (0x20000, 32768), (0x28000, 1024), (0x29000, 16384), (0x40000, 786432)]

/-- Header bytes 24 to 31: cause, Caller, context and PC. A request of the host names no Caller, and its context and PC are
free. -/
def dumpWho (s : State) (o : DumpOp) : List Byte :=
  if o.cause = 2 then [2, 0, s.free.truncate 8, 0] ++ leBytes 4 (s.free.toNat / 256 % 2 ^ 24)
  else
    let c := (s.caller o.die o.caller).ctx.getD 0
    [1, BitVec.ofNat 8 (o.die.val + 16 * o.caller.val), BitVec.ofNat 8 c.val, 0] ++ leBytes 4 (s.cc o.die o.caller c).pc.toNat

/-- The header: bytes 0 to 4,087, their CRC-32, and COMMIT. -/
def dumpHeader (s : State) (o : DumpOp) : List Byte :=
  let body := padTo 4088 (leBytes 4 0x444D5039 ++ leBytes 4 1 ++ leBytes 8 o.first.toNat ++ leBytes 8 s.beat.toNat ++ dumpWho s o ++
    dumpTable.flatMap fun x => leBytes 4 x.1 ++ leBytes 4 x.2)
  body ++ leBytes 4 (crc32 body).toNat ++ leBytes 4 0x434F4D54

/-! ### A dump's course (R536, R537, R540) -/

def dumpBusy (s : State) : Bool := s.bit aDbgDumpctl 28
def dumpArmed (s : State) : Bool := s.bit aDbgDumpctl 30
def dumpBase (s : State) : Nat := (s.rd64 aDbgDumpbase0).toNat

/-- The area lies in the local stack region and is 2 MiB aligned. -/
def dumpBaseOk (s : State) : Bool :=
  let b := dumpBase s
  b % 0x200000 = 0 && b < 0x20000000000 && match place 8 b with | .stack _ _ => true | _ => false

/-- A dump starts: the Callers are captured in this beat, its lines are asked of the ledger in class 5, and header bytes 4,032 to
4,095 are zeroed. -/
def startDump (s : State) (cause : Fin 4) (d : DieId) (k : CallerId) : State :=
  let b := dumpBase s
  let o : DumpOp := { base := BitVec.ofNat 48 b, cause := cause, die := d, caller := k, first := s.beat, image := dumpCallers s }
  let s₁ := ({ s with dbg := { s.dbg with dump := some o } }.setBit aDbgDumpctl 28 true).setFld aDbgDumpctl 26 24 0
  (memWrite (s₁.askLines hubRequester true .other b 0x100000) masterHub (b + 4032) (List.replicate 64 0)).1

/-- GO and ARM of a write of DBG_DUMPCTL; none where it is refused (R540). -/
def writeDumpctl (s : State) (v : Word) : Option State :=
  let go := v.getLsbD 31
  let arm := v.getLsbD 29
  if (go && (!dumpArmed s || dumpBusy s)) || (arm && !dumpBaseOk s) then none
  else
    let s₁ := s.setBit aDbgDumpctl 27 (v.getLsbD 27)
    let s₂ := if arm then s₁.setBit aDbgDumpctl 30 true else s₁
    some (if go then startDump s₂ 2 0 0 else s₂)

/-- The dump's writes, sections first, header last; the state and whether the stack took them all. -/
def writeDump (s : State) (o : DumpOp) : State × Bool :=
  let put (p : State × Bool) (x : Nat × List Byte) : State × Bool :=
    match memWrite p.1 masterHub (o.base.toNat + x.1) x.2 with
    | (s₁, .ok) => (s₁, p.2)
    | (s₁, _) => (s₁, false)
  ((0x1000, o.image) :: (dumpSections s ++ [(0, dumpHeader s o)])).foldl put (s, true)

/-- DUMP_COMMIT: the rest is written, COMMIT last, ARMED clears, and the host is told; a stack that fails stops the dump. -/
def dumpCommit (s : State) : State :=
  match s.dbg.dump with
  | none => s
  | some o =>
    match writeDump s o with
    | (s₁, true) =>
      let s₂ := ({ s₁ with dbg := { s₁.dbg with dump := none } }.setBit aDbgDumpctl 28 false).setBit aDbgDumpctl 30 false
      (if o.cause = 2 then s₂.tookFree else s₂).notify 3 (BitVec.ofNat 56 (o.die.val + 256 * o.caller.val)) []
    | (_, false) => stopDump s 2

def execDumpCommit (s : State) : Host.Outcome State Fault Refusal := .next (dumpCommit s)

/-- DUMP_STOP: a write to the stack fails. -/
def execDumpStop (s : State) : Host.Outcome State Fault Refusal := .next (stopDump s 2)

/-! ### The watchdog (R535, R536) -/

/-- The Caller's next figure waits for a floor that lies in the future. -/
def floorAhead (s : State) (d : DieId) (k : CallerId) (c : CtxId) : Bool :=
  let q := s.caller d k
  let cc := s.cc d k c
  q.st = .floor && q.run.isNone && !cc.relaunch && match fetchedAt q cc.pc with
    | some f => decide (callerBeat s < cc.anchor.toNat + figOffset f)
    | none => false

/-- The beat counts as one without progress for the Caller. -/
def idles (s : State) (d : DieId) (k : CallerId) : Bool :=
  let q := s.caller d k
  match q.ctx with
  | none => false
  | some c => q.st ≠ .halted && q.st ≠ .held && q.st ≠ .switching && q.st ≠ .idle && !floorAhead s d k c

def idleCount (s : State) (d : DieId) (k : CallerId) : Nat := SMap.get (fun _ => 0) s.dbg.idleBeats (callerNo d k)

/-- The watchdog of a Caller is due. -/
def watchdogDue (s : State) (d : DieId) (k : CallerId) : Bool :=
  let limit := s.fld aDbgWd 15 0
  limit ≠ 0 && decide (limit * 1024 ≤ idleCount s d k) && !s.dbg.expired.contains (callerNo d k)

/-- WATCHDOG_EXPIRY: once until the Caller's next progress; no Caller, figure or context changes. -/
def watchdogExpiry (s : State) (d : DieId) (k : CallerId) : State :=
  match (s.caller d k).ctx with
  | none => s
  | some c =>
    if !watchdogDue s d k then s
    else
      let s₁ : State := { s with dbg := { s.dbg with expired := s.dbg.expired ++ [callerNo d k] } }
      let s₂ := s₁.report (ctxEvent d k c 0x0A 0)
      if s.bit aDbgDumpctl 27 && dumpArmed s && !dumpBusy s then startDump s₂ 1 d k else s₂

def execWatchdogExpiry (d : DieId) (k : CallerId) (s : State) : Host.Outcome State Fault Refusal := .next (watchdogExpiry s d k)

end Sys2Proof.Machine
end

