-- ==== Sys2Proof/Machine/RegWrite.lean ====
section
/-! DEFINITION. Writing a register: what a write of each register does beyond setting its fields, and when it is ignored with an
access error (R6 to R12, R551 to R563). A write that is refused changes nothing. -/
namespace Sys2Proof.Machine

/-- What a write brings with it that no field holds: the nonce of a guest's release (R232) and the outcome of a stack's training
(R162). -/
structure WriteArg where
  nonce : BitVec 384 := 0
  train : TrainOutcome := .failed
deriving DecidableEq, Repr

/-- RW fields take the value, W1C fields lose the bits written 1 (R10, R11) but for those that an event has set in the same
beat (R12). -/
def plainWrite (s : State) (r : RegRow) (a : Nat) (v : Word) : State :=
  s.wr a ((s.rd a &&& ~~~(r.mask .rw) &&& ~~~(r.mask .w1c &&& (v &&& ~~~(s.fresh a)))) ||| (v &&& r.mask .rw))

/-- `some s` where a condition holds, an access error otherwise. -/
def allow (ok : Bool) (s : State) : Option State := if ok then some s else none

def inRange (x lo hi : Nat) : Bool := lo ≤ x && x ≤ hi

/-! ### Hub: mode, sync objects, contexts, translations, plans -/

/-- HUB_MODE: the new value holds from the next beat; clearing DET_STRICT is refused while LOCK, PRT_CFG.EN or MC_CTL.EN is 1
(R396, R397). -/
def writeMode (s : State) (v : Word) : Option State :=
  let clears := detStrict s && !v.getLsbD 0
  let lock := s.bit aHubMode 1
  allow (!(clears && (lock || s.bit aPrtCfg 31 || s.bit aMcCtl 31)))
    { s with modeNext := some (BitVec.ofNat 2 ((if lock || v.getLsbD 1 then 2 else 0) + if v.getLsbD 0 then 1 else 0)) }

/-- HUB_SYNCCFG: a change of EN, MODE or OWNER frees the object's waiters (R141). -/
def writeSynccfg (s : State) (r : RegRow) (a : Nat) (v : Word) : State :=
  let s₁ := (plainWrite s r a v).hubWrite 6 a
  let changed := (s₁.rd a &&& r.mask .rw) ≠ (s.rd a &&& r.mask .rw)
  if changed then evictWaiters s₁ (Fin.ofNat 4096 ((a - 0x14000) / 4)) else s₁

/-- A context register of slot `c`: taken in EMPTY and IDLE only; a pair takes effect when its high word is written, and the root
after every TLB entry of the context is discarded (R160, R184, R563). -/
def writeCtx (s : State) (r : RegRow) (a : Nat) (v : Word) : Option State :=
  let c : CtxId := Fin.ofNat 64 ((a - 0x2000) / 0x40)
  let o := a % 0x40
  if o < 4 ∨ 0x28 ≤ o then some (plainWrite s r a v)
  else if ctxState s c ≠ ctxEmpty ∧ ctxState s c ≠ ctxIdle then none
  else if o = 4 then some (plainWrite s r a v)
  else if o % 8 = 0 then some { s with lowWords := SMap.set (fun _ => none) s.lowWords a (some v) }
  else
    let low := (SMap.get (fun _ => none) s.lowWords (a - 4)).getD (s.rd (a - 4))
    let s₁ := ({ s with lowWords := SMap.set (fun _ => none) s.lowWords (a - 4) none }.wr (a - 4) low).wr a v
    some (if o = 0x24 then tlbDiscard s₁ fun x _ => x = c else s₁)

/-- HUB_TLBINV1: GO starts an invalidation with the fields of the same write (R186). -/
def writeTlbinv (s : State) (r : RegRow) (v : Word) : Option State :=
  if s.bit aHubTlbstat 0 ∨ (v.getLsbD 31 ∧ getF v 9 8 = 3) then none
  else
    let s₁ := plainWrite s r aHubTlbinv1 v
    some (if v.getLsbD 31 then startInvalidate s₁ (getF v 9 8) (getF v 5 0) else s₁)

/-- HUB_PLANCTL (R219, R220, R238). -/
def writePlanctl (s : State) (v : Word) : Option State :=
  if v.getLsbD 31 && v.getLsbD 30 then none
  else if v.getLsbD 31 then allow (!planBusy s && !planPending s) (startPlanLoad s)
  else if v.getLsbD 30 then allow (planReady s && !planPending s) (requestSwitch s)
  else some s

/-- A word of a plan bank: the standby bank alone, while no check runs and no switch waits; READY clears (R215, R239). -/
def writePlan (s : State) (a : Nat) (v : Word) : Option State :=
  let bank := if a < 0x800000 then 0 else 1
  allow (bank ≠ activeBank s && !planBusy s && !planPending s) (((s.wr a v).setBit aHubPlanstat 30 false).hubWrite 5 a)

/-! ### Partners and mirror-compare -/

/-- PRT_CFG: while EN is 1 only a write that clears it is taken; EN needs DET_STRICT (R369, R371, R388). -/
def writePrtCfg (s : State) (r : RegRow) (v : Word) : Option State :=
  let en := s.bit aPrtCfg 31
  let new := v.getLsbD 31
  if (en && new) || (new && !detStrict s) || !inRange (getF v 15 8) 4 64 || !inRange (getF v 7 0) 1 255 then none
  else
    let s₁ := plainWrite s r aPrtCfg v
    let enter (s : State) (st : Nat) : State := (s.setFld aPrtState 2 0 st).notify 4 (BitVec.ofNat 56 st) []
    some (if en && !new then enter (s₁.setLease { num := s.lease.num, unclean := s.lease.unclean }) prtDisabled
      else if new then enter s₁ prtPairing
      else s₁)

/-- PRT_CTL: YIELD from LEAD, SOLO and JOIN from PAIRING or FENCED (R371, R376, R377, R388). -/
def writePrtCtl (s : State) (v : Word) : Option State :=
  let st := prtState s
  let apart := st = prtPairing ∨ st = prtFenced
  if (v.getLsbD 0 ∧ st ≠ prtLead) ∨ ((v.getLsbD 1 ∨ v.getLsbD 2) ∧ ¬apart) ∨ (v.getLsbD 1 ∧ v.getLsbD 2) then none
  else if v.getLsbD 0 then some (sendYield s)
  else if v.getLsbD 2 then some (becomeLead s 7)
  else if v.getLsbD 1 then some (startJoin s)
  else some s

/-- MC_CTL: writing 1 needs DET_STRICT, and PRT_CFG.EN clear (R380). -/
def writeMcCtl (s : State) (r : RegRow) (v : Word) : Option State :=
  allow (!(v.getLsbD 31 && (s.bit aPrtCfg 31 || !detStrict s))) (plainWrite s r aMcCtl v)

/-- MC_FIRST0.VALID: the halt clears and the capture is armed again (R384, R390). -/
def clearHalt (s : State) : State :=
  let s₁ := (s.setBit aMcFirst0 31 false).setBit aMcStat 31 false
  if mcHalted s then s₁.notify 4 0x10000 [] else s₁

/-! ### The image's registers -/

/-- HUB_RST without its warm reset, which follows the completion (R463, R466, R470). -/
def writeRst (s : State) (v : Word) : Option State :=
  if getF v 31 24 ≠ 0xA5 then none
  else if v.getLsbD 1 && !v.getLsbD 0 then quiesce s
  else some s

/-- A write of HUB_RST asks for a warm reset. -/
def asksWarm (a : Nat) (v : Word) : Bool := a = aHubRst && getF v 31 24 = 0xA5 && v.getLsbD 0

/-- HUB_FLASHCTL (R471). -/
def writeFlashctl (s : State) (r : RegRow) (v : Word) : Option State :=
  if s.bit aHubFlashctl 30 then none
  else if v.getLsbD 31 then allow (flashOk s (getF v 1 0)) (flashGo s (getF v 1 0))
  else some (plainWrite s r aHubFlashctl v)

/-- The registers of the hub block. -/
def writeHub (s : State) (r : RegRow) (a : Nat) (v : Word) : Option State :=
  if a = aHubMode then writeMode s v
  else if a = aHubAcellFree then some (s.setCell (getF v 7 0) {})
  else if 0x10000 ≤ a ∧ a < 0x14000 then some (writeSyncval s (Fin.ofNat 4096 ((a - 0x10000) / 4)) (v.truncate 20))
  else if 0x14000 ≤ a ∧ a < 0x18000 then some (writeSynccfg s r a v)
  else if 0x2000 ≤ a ∧ a < 0x3000 then writeCtx s r a v
  else if a = aHubTlbinv0 then allow (!s.bit aHubTlbstat 0) (plainWrite s r a v)
  else if a = aHubTlbinv1 then writeTlbinv s r v
  else if a = aHubPlanctl then writePlanctl s v
  else if 0x400000 ≤ a then writePlan s a v
  else if a = aHubCalctl then allow (inRange (getF v 13 0) 10 10000) (plainWrite s r a v)
  else if a = aHubLgt then (if v.getLsbD 31 then allow (!lgtBusy s) (startLgt s) else some s)
  else if a = aMmAlign then (if v.getLsbD 31 then allow (allEmpty s) (startAlign s) else some s)
  else if a = aPrtCfg then writePrtCfg s r v
  else if a = aPrtCtl then writePrtCtl s v
  else if a = aMcCtl then writeMcCtl s r v
  else if a = aMcFirst0 then some (if (v &&& ~~~(s.fresh a)).getLsbD 31 then clearHalt s else s)
  else if a = aHubRst then writeRst s v
  else if a = aHubFlashctl then writeFlashctl s r v
  else if a = aHubFlashaddr ∨ (0x5000 ≤ a ∧ a < 0x5100) then allow (!s.bit aHubFlashctl 30) (plainWrite s r a v)
  else if a = aHubAttctl then (if v.getLsbD 31 then allow (attestOk s) (attestStart s) else some s)
  else if 0xE80 ≤ a ∧ a < 0xEB0 then some (writeNonce s ((a - 0xE80) / 4) v)
  else some (plainWrite s r a v)

/-! ### Dies, base dies, rings, light, links -/

/-- TD_CTXWIN: the window that is in force stays so until the next figure boundary of the context on the die, or until the next
beat where none of the die's Callers has a figure of it running (R111). -/
def writeWindow (s : State) (r : RegRow) (a : Nat) (v : Word) (d : DieId) (c : CtxId) : State :=
  { plainWrite s r a v with wins := SMap.set (fun _ => none) s.wins (64 * d.val + c.val) (some (ctxWindow s d c)) }

/-- A register of a tensor-die block: a figure table base is refused while its context is RUNNING, and its low bits read 0
(R158). -/
def writeTd (s : State) (r : RegRow) (a : Nat) (v : Word) : Option State :=
  let o := a % 0x100000
  if 0x1400 ≤ o ∧ o < 0x1800 then
    allow (ctxState s (Fin.ofNat 64 ((o - 0x1400) / 16)) ≠ ctxRunning) (plainWrite s r a (v &&& ~~~0x1F#32))
  else if 0x1000 ≤ o ∧ o < 0x1100 then
    some (writeWindow s r a v (Fin.ofNat 12 ((a - 0x1000000) / 0x100000)) (Fin.ofNat 64 ((o - 0x1000) / 4)))
  else some (plainWrite s r a v)

/-- PB_MEMCTL: RETRAIN acts on a FAILED stack (R169, R171). -/
def writeMemctl (s : State) (r : RegRow) (a : Nat) (v : Word) (x : WriteArg) : Option State :=
  let st : StackId := Fin.ofNat 32 (8 * ((a - 0x2000000) / 0x100000) + (a % 0x100000 - 0x140) / 4)
  if v.getLsbD 0 then
    allow (memState s st = memFailed) (trained ((plainWrite s r a v).setBit aHubMeminv st false) st x.train memZeroing)
  else some (plainWrite s r a v)

/-- RNG_CTL: RETEST where R281 allows it; FF_EN and PAM6_EN are held at 0 but for tensor-die ports. -/
def writeRngCtl (s : State) (p : Nat) (v : Word) : Option State :=
  let s₁ := if p < 96 then s.setFld (aRngCtl p) 1 0 (getF v 1 0) else s
  if v.getLsbD 2 then allow (retestAllowed s p) (beginSearch s₁ p) else some s₁

/-- The register at offset `o` of a port's ring block. -/
def writeRng (s : State) (r : RegRow) (a p o : Nat) (v : Word) : Option State :=
  if o = 0x4 then writeRngCtl s p v
  else if o = 0x18 then some (clearSuspect s p (v &&& ~~~(s.fresh a)))
  else if o = 0x24 then allow (inRange (getF v 10 0) 50 2000) (plainWrite s r a v)
  else some (plainWrite s r a v)

/-- A base die's registers: its stacks, and the ring blocks of its dies' ports and of its link end (R171, R280). -/
def writePb (s : State) (r : RegRow) (a : Nat) (v : Word) (x : WriteArg) : Option State :=
  let k := (a - 0x2000000) / 0x100000
  let o := a % 0x100000
  if 0x140 ≤ o ∧ o < 0x160 then writeMemctl s r a v x
  else if 0x16000 ≤ o then writeRng s r a (116 + k) (o - 0x16000) v
  else if 0x10000 ≤ o then writeRng s r a (24 * k + (o - 0x10000) / 0x400) (o % 0x400) v
  else some (plainWrite s r a v)

/-- LB_CTL: DRV_MAX in range; HO_GO sends a line that is not LOST to stage 2 (R294, R308). -/
def writeLbCtl (s : State) (r : RegRow) (a b : Nat) (v : Word) : Option State :=
  let w := getF v 20 16
  let s₁ := plainWrite s r a v
  if !inRange (getF v 8 0) 260 400 then none
  else if !v.getLsbD 15 then some s₁
  else if h : w < 18 then allow (lineState s b w ≠ lineLost) (stage2 s₁ b ⟨w, h⟩)
  else none

/-- LNK_CTL: RENEG of an UP link, DOWN, and FLUSH of held traffic (R341, R343, R346, R353). -/
def writeLnkCtl (s : State) (r : RegRow) (a x : Nat) (v : Word) : Option State :=
  let was := s.bit a 1
  let s₁ := plainWrite s r a v
  let s₂ := if v.getLsbD 1 then linkDown s₁ x .ctl
    else if was ∧ lnkState s x = lnkDown ∧ rngState s (96 + x) = rngDown then beginSearch s₁ (96 + x)
    else s₁
  if v.getLsbD 2 then allow (lnkState s x = lnkUp) (if v.getLsbD 1 then s₂ else linkDown s₂ x .reneg)
  else some (if v.getLsbD 0 && s.bit (aLnkState x) 8 then flushPort s₂ x else s₂)

/-- An external port's registers (R280, R311, R350). -/
def writeX (s : State) (r : RegRow) (a : Nat) (v : Word) : Option State :=
  let x := (a - 0x4000000) / 0x10000
  let o := a % 0x10000
  if o = 0xC then
    allow (inRange (getF v 22 16) 1 100 && inRange (getF v 15 8) 2 255 && inRange (getF v 1 0) 0 1) (plainWrite s r a v)
  else if o = 0x10 then writeLnkCtl s r a x v
  else if 0x2000 ≤ o then some (if o = 0x2004 then writeEyeCtl s x v else s)
  else if 0x1000 ≤ o then writeRng s r a (96 + x) (o - 0x1000) v
  else some (plainWrite s r a v)

/-! ### Collector, thermal and power, debug, host link, guest -/

/-- Instances of a checker class (R489). -/
def injInstances (k : Nat) : Nat := match k with | 0 | 1 => 12 | 2 => 32 | _ => 1

/-- The collector's registers (R483, R487 to R496). -/
def writeFlt (s : State) (r : RegRow) (a : Nat) (v : Word) : Option State :=
  if a = aFltStatus1 then some (clearStatus1 s (v &&& ~~~(s.fresh a)))
  else if a = aFltAck then some (ackTimers s v)
  else if a = aFltCfg then allow (inRange (getF v 9 0) 5 1000) (plainWrite s r a v)
  else if a = aFltErrn then some (writeErrn (plainWrite s r a v))
  else if aFltInj 0 ≤ a ∧ a ≤ aFltInj 9 then
    allow (getF v 23 16 < injInstances ((a - aFltInj 0) / 4)) (plainWrite s r a v)
  else some (plainWrite s r a v)

/-- The thermal and power registers, but for TP_TDCTL (R517 to R521). -/
def writeTp (s : State) (r : RegRow) (a : Nat) (v : Word) : Option State :=
  if a = aTpCfg then allow (inRange (getF v 28 16) 3000 6000 && inRange (getF v 6 0) 70 110) (plainWrite s r a v)
  else if a = aTpSensctl then writeSensctl s v
  else if aTpTdv 0 ≤ a ∧ a ≤ aTpTdv 11 then
    allow (inRange (getF v 24 16) 200 480 && inRange (getF v 4 0) 0 20) (plainWrite s r a v)
  else some (plainWrite s r a v)

/-- The debug registers (R526, R533, R540 to R548). -/
def writeDbg (s : State) (r : RegRow) (a : Nat) (v : Word) : Option State :=
  let d : DieId := Fin.ofNat 12 ((a - 0x7010000) / 0x1000)
  let o := a % 0x1000
  if a = aDbgDumpctl then writeDumpctl s v
  else if a = aDbgDumpbase0 ∨ a = aDbgDumpbase1 then allow (!dumpBusy s) (plainWrite s r a v)
  else if a < 0x7010000 ∨ 0x7080000 ≤ a then some (plainWrite s r a v)
  else if o = 0 then writeReelctl s d v
  else if o = 0x14 then some (if v.getLsbD 31 then forceTrigger (plainWrite s r a v) d else plainWrite s r a v)
  else if o = 0x40 then some (if v.getLsbD 0 then sampleDie s d.val else s)
  else some (plainWrite s r a v)

/-- HLK_CTL (R423, R424, R436). -/
def writeHlkCtl (s : State) (v : Word) : Option State :=
  if v.getLsbD 0 && hlkState s ≠ hlkUp then none
  else some (if v.getLsbD 1 then hlkReset s 3 else if v.getLsbD 0 then hlkStartRetrain s else s)

/-- GFW_CTL: RESET and its release, OPEN from ATTESTED, CLOSE from OPEN (R232, R236, R242). -/
def writeGfwCtl (s : State) (v : Word) (x : WriteArg) : Option State :=
  if v.getLsbD 1 && gfwState s ≠ gfwAttested then none
  else
    let s₁ := if v.getLsbD 1 then setGfwState s gfwOpened
      else if v.getLsbD 2 && gfwState s = gfwOpened then setGfwState s gfwAttested
      else s
    some (if v.getLsbD 0 then guestReset s₁ else guestRelease s₁ x.nonce)

/-- 2 MiB units of the local stack region and the tensor-die SRAM, which follow one another (R173). -/
def gfwUnits : Nat := (0x20000000000 + 12 * 0x8000000) / 0x200000

/-- A window of the firewall covers nothing beyond the local stacks and SRAM, or is empty (R233, R244). -/
def gfwWinOk (w0 w1 : Word) : Bool := decide (getF w1 26 0 < getF w0 26 0) || decide (getF w1 26 0 < gfwUnits)

/-- The firewall's registers (R242 to R245). -/
def writeGfw (s : State) (r : RegRow) (a : Nat) (v : Word) (x : WriteArg) : Option State :=
  if a = aGfwCtl then writeGfwCtl s v x
  else if a = aGfwShare then allow (getF v 2 0 ≤ 4) (plainWrite s r a v)
  else if aGfwWin0 0 ≤ a ∧ a < aGfwWin0 8 then
    allow (if a % 8 = 0 then gfwWinOk v (s.rd (a + 4)) else gfwWinOk (s.rd (a - 4)) v) (plainWrite s r a v)
  else some (plainWrite s r a v)

/-! ### A write -/

/-- The effect of a write that reaches its register, by block (R9). -/
def writeBlock (s : State) (r : RegRow) (a : Nat) (v : Word) (x : WriteArg) : Option State :=
  match a / 0x1000000 with
  | 0 =>
    if 0x30000 ≤ a ∧ a < 0x31000 then writeRng s r a (112 + (a - 0x30000) / 0x400) (a % 0x400) v
    else if 0x31000 ≤ a ∧ a < 0x32000 then writeRng s r a (128 + (a - 0x31000) / 0x400) (a % 0x400) v
    else if 0x32000 ≤ a ∧ a < 0x34000 then writeRng s r a (120 + (a - 0x32000) / 0x400) (a % 0x400) v
    else writeHub s r a v
  | 1 => writeTd s r a v
  | 2 => writePb s r a v x
  | 3 => if a % 0x10000 = 4 then writeLbCtl s r a ((a - 0x3000000) / 0x10000) v else some (plainWrite s r a v)
  | 4 => writeX s r a v
  | 5 => writeFlt s r a v
  | 6 => writeTp s r a v
  | 7 => writeDbg s r a v
  | 8 => if a = aHlkCtl then writeHlkCtl s v else some (plainWrite s r a v)
  | _ => writeGfw s r a v x

/-- A register is written: the state after, and whether the write is no access error. -/
def regWrite (s : State) (q : Requester) (a : Nat) (v : Word) (x : WriteArg) : State × Bool :=
  let fail (s : State) : State × Bool := (accessFail s q a, false)
  if a % 4 ≠ 0 then fail s
  else match regAt a with
    | none => fail s
    | some r =>
      if r.home = .stbyro then fail s
      else if !regOn s r a then (s, true)
      else if a = aTpTdctl then
        (match writeTdctl s v with | (s₁, true) => fail s₁ | (s₁, false) => (s₁, true))
      else match writeBlock s r a v x with
        | none => fail s
        | some s₁ => (s₁, true)

/-- What a plain write brings where a register needs more than its value: free values. -/
def freeArg (s : State) (a : Nat) : State × WriteArg :=
  if a = aGfwCtl ∨ (0x2000000 ≤ a ∧ a < 0x2400000 ∧ 0x140 ≤ a % 0x100000 ∧ a % 0x100000 < 0x160) then
    let f (i : Nat) : BitVec 64 := Config.freeValue (s.freeCtr + i)
    ({ s with freeCtr := s.freeCtr + 7 },
      { nonce := f 0 ++ f 1 ++ f 2 ++ f 3 ++ f 4 ++ f 5
        train := match (f 6).toNat % 3 with | 0 => .speed2 | 1 => .speed1 | _ => .failed })
  else (s, {})

end Sys2Proof.Machine
end

