-- ==== Sys2Proof/Machine/HostCmd.lean ====
section
/-! DEFINITION. The host's register commands: REG_RD, REG_WR, REG_WRB, and every row that is a write of one register (R426 to
R431, R454, R463, R464, R528, R557, R560, R562). -/
namespace Sys2Proof.Machine

/-! ### Who may reach which register, and when -/

/-- The registers that a host reaches in NO_IMAGE: HUB_ID and those of R468. -/
def bootReg (a : Nat) : Bool :=
  a = aHubId || (0xE00 ≤ a && a < 0xE20) || (0xE80 ≤ a && a < 0xEB0) || (0xF00 ≤ a && a < 0x1100) ||
    (0x4000 ≤ a && a < 0x4800) || (0x5000 ≤ a && a < 0x5100)

/-- A register of the context aperture of a context that the channel reaches (R528, R550). -/
def apertureReach (s : State) (ch : ChanId) (a : Nat) : Bool :=
  0x7080000 ≤ a && a < 0x7090000 && chanReaches s ch (Fin.ofNat 64 ((a - 0x7080000) / 0x400))

/-- Why a host may not access the register at `a` now, if it may not: the privilege of its channel, then the start state. -/
def hostRegRefusal (s : State) (ch : ChanId) (a : Nat) (wr : Bool) : Option Status :=
  if ctxPrivileged s ch && (wr || !apertureReach s ch a) then some .access
  else if bootState s = bootNoImage && !bootReg a then some .state
  else if wr && bootState s = bootFaulted && !(a = aHubAttctl || (0xE80 ≤ a && a < 0xEB0)) then some .state
  else if wr && bootState s = bootQuiescing then some .state
  else none

/-- An access that privilege turns away is an access error like one of the register itself (R7, R552). -/
def reportDenied (s : State) (ch : ChanId) (a : Nat) (st : Status) : State :=
  if st = .access then accessFail s (.host ch) a else s

/-! ### REG_RD -/

/-- REG_RD: the value in ARG[31:0]. -/
def hostRegRead (s : State) (h : HostHdr) (a : Nat) : State :=
  match hostRegRefusal s h.ch a false with
  | some st => (reportDenied s h.ch a st).complete (keyOf h) kRegRd 0 st 0 []
  | none =>
    let (s₁, v, ok) := regRead s (.host h.ch) a
    s₁.complete (keyOf h) kRegRd 0 (if ok then .ok else .access) (v.zeroExtend 48) []

def execRegRd (h : HostHdr) (addr : Word) (s : State) : Host.Outcome State Fault Refusal :=
  .next (hostCmd s h kRegRd .reg fun s => hostRegRead s h addr.toNat)

/-! ### Writes -/

/-- One write of one register, and its status. -/
def hostWriteOne (s : State) (ch : ChanId) (a : Nat) (v : Word) (x : WriteArg) : State × Status :=
  match hostRegRefusal s ch a true with
  | some st => (reportDenied s ch a st, st)
  | none => match regWrite s (.host ch) a v x with
    | (s₁, true) => (s₁, .ok)
    | (s₁, false) => (s₁, .access)

/-- The completion leaves, and then the warm reset that a write of HUB_RST asked for begins (R463). -/
def doneThenReset (s : State) (warm : Bool) (key : CplKey) (kind : Byte) (st : Status) (arg : BitVec 48) : State :=
  let s₁ := s.complete key kind 0 st arg []
  if !warm then s₁
  else
    let s₂ := warmReset s₁
    let sent := if s.hostOut.length < s₁.hostOut.length then s₁.hostOut.getLast? else none
    { s₂ with boot := { s₂.boot with lastSent := sent } }

/-- REG_WR with what the write brings. -/
def hostRegWrite (s : State) (h : HostHdr) (a : Nat) (v : Word) (x : WriteArg) : State :=
  let (s₁, st) := hostWriteOne s h.ch a v x
  doneThenReset s₁ (st = .ok && asksWarm a v) (keyOf h) kRegWr st 0

/-- A host's REG_WR of the register at `a`: every row that is a write of one register is this. -/
def hostWr (h : HostHdr) (a : Nat) (v : Word) (x : WriteArg) (s : State) : Host.Outcome State Fault Refusal :=
  .next (hostCmd s h kRegWr .reg fun s => hostRegWrite s h a v x)

/-- REG_WR: where the register's write needs more than its value, that is free. -/
def execRegWr (h : HostHdr) (addr value : Word) (s : State) : Host.Outcome State Fault Refusal :=
  .next (hostCmd s h kRegWr .reg fun s =>
    let (s₁, x) := freeArg s addr.toNat
    hostRegWrite s₁ h addr.toNat value x)

/-- The 32-bit values of a message's data. -/
def dataWords : List Byte → List Word
  | b₀ :: b₁ :: b₂ :: b₃ :: bs => (b₃ ++ b₂ ++ b₁ ++ b₀) :: dataWords bs
  | _ => []

/-- What the writes of a REG_WRB have come to: the state, the first failure with its address, whether a warm reset is due. -/
structure WrbRun where
  s : State
  fail : Option (Status × Nat) := none
  warm : Bool := false

/-- Every write of a REG_WRB in ascending address, those after one that fails included (R562). -/
def writeRun (ch : ChanId) : WrbRun → Nat → List Word → WrbRun
  | r, _, [] => r
  | r, a, v :: vs =>
    let (s₀, x) := freeArg r.s a
    let (s₁, st) := hostWriteOne s₀ ch a v x
    let fail := if st = .ok then r.fail else r.fail.orElse fun _ => some (st, a)
    writeRun ch { s := s₁, fail := fail, warm := r.warm || (st = .ok && asksWarm a v) } (a + 4) vs

/-- REG_WRB: the address of the first write that failed in ARG[31:0] (R562); nothing is applied on a context-privileged channel
(R528). -/
def hostRegBurst (s : State) (h : HostHdr) (a : Nat) (data : List Byte) : State :=
  if data.length % 4 ≠ 0 ∨ data.length > 2048 then s.complete (keyOf h) kRegWrb 0 .format 0 []
  else if ctxPrivileged s h.ch then
    (accessFail s (.host h.ch) a).complete (keyOf h) kRegWrb 0 .access (BitVec.ofNat 48 a) []
  else
    let r := writeRun h.ch { s := s } a (dataWords data)
    match r.fail with
    | none => doneThenReset r.s r.warm (keyOf h) kRegWrb .ok 0
    | some (st, b) => doneThenReset r.s r.warm (keyOf h) kRegWrb st (BitVec.ofNat 48 b)

def execRegWrb (h : HostHdr) (addr : Word) (data : List Byte) (s : State) : Host.Outcome State Fault Refusal :=
  .next (hostCmd s h kRegWrb .reg fun s => hostRegBurst s h addr.toNat data)

/-! ### The rows that write one register of the hub -/

/-- HUB_SYNCVAL (R135, R141). -/
def execHubSyncval (h : HostHdr) (obj : ObjId) (v : Word) (s : State) : Host.Outcome State Fault Refusal :=
  hostWr h (aHubSyncval obj) v {} s

/-- HUB_SYNCCFG (R141). -/
def execHubSynccfg (h : HostHdr) (obj : ObjId) (v : Word) (s : State) : Host.Outcome State Fault Refusal :=
  hostWr h (aHubSynccfg obj) v {} s

/-- HUB_ACELL_FREE (R55). -/
def execHubAcellFree (h : HostHdr) (v : Word) (s : State) : Host.Outcome State Fault Refusal :=
  hostWr h aHubAcellFree v {} s

/-- HUB_CTXPTR1 (R184). -/
def execHubCtxptr1 (h : HostHdr) (c : CtxId) (v : Word) (s : State) : Host.Outcome State Fault Refusal :=
  hostWr h (aHubCtxptr1 c) v {} s

/-- TLB_INVALIDATE: a write of HUB_TLBINV1 (R186). -/
def execTlbInvalidate (h : HostHdr) (v : Word) (s : State) : Host.Outcome State Fault Refusal :=
  hostWr h aHubTlbinv1 v {} s

/-- PLAN_LOAD: HUB_PLANCTL.LOAD (R219, R238). -/
def execPlanLoad (h : HostHdr) (s : State) : Host.Outcome State Fault Refusal :=
  hostWr h aHubPlanctl 0x80000000 {} s

/-- PLAN_SWITCH_REQUEST: HUB_PLANCTL.SWITCH (R220, R238). -/
def execPlanSwitchRequest (h : HostHdr) (s : State) : Host.Outcome State Fault Refusal :=
  hostWr h aHubPlanctl 0x40000000 {} s

/-- LGT_SAVE: HUB_LGT.SAVE (R260, R286). -/
def execLgtSave (h : HostHdr) (s : State) : Host.Outcome State Fault Refusal :=
  hostWr h aHubLgt 0x80000000 {} s

/-- REALIGN: MM_ALIGN.REALIGN (R362, R387). -/
def execRealign (h : HostHdr) (s : State) : Host.Outcome State Fault Refusal :=
  hostWr h aMmAlign 0x80000000 {} s

/-- PRT_CTL_YIELD (R376, R388). -/
def execPrtCtlYield (h : HostHdr) (s : State) : Host.Outcome State Fault Refusal :=
  hostWr h aPrtCtl 1 {} s

/-- SOLO: PRT_CTL.SOLO (R371, R388). -/
def execSolo (h : HostHdr) (s : State) : Host.Outcome State Fault Refusal :=
  hostWr h aPrtCtl 4 {} s

/-- PRT_CTL_JOIN (R377, R388). -/
def execPrtCtlJoin (h : HostHdr) (s : State) : Host.Outcome State Fault Refusal :=
  hostWr h aPrtCtl 2 {} s

/-- MC_CLEAR: MC_FIRST0.VALID written 1 (R384, R390). -/
def execMcClear (h : HostHdr) (s : State) : Host.Outcome State Fault Refusal :=
  hostWr h aMcFirst0 0x80000000 {} s

/-- HUB_MODE_WRITE (R397). -/
def execHubModeWrite (h : HostHdr) (v : Word) (s : State) : Host.Outcome State Fault Refusal :=
  hostWr h aHubMode v {} s

/-- HUB_RST_WARM (R463, R470). -/
def execHubRstWarm (h : HostHdr) (v : Word) (s : State) : Host.Outcome State Fault Refusal :=
  hostWr h aHubRst v {} s

/-- QUIESCE: HUB_RST.QUIESCE (R466, R470). -/
def execQuiesce (h : HostHdr) (v : Word) (s : State) : Host.Outcome State Fault Refusal :=
  hostWr h aHubRst v {} s

/-- FLASH_READ: HUB_FLASHCTL.GO with OP 0 (R471). -/
def execFlashRead (h : HostHdr) (s : State) : Host.Outcome State Fault Refusal :=
  hostWr h aHubFlashctl 0x80000000 {} s

/-- FLASH_PROGRAM: HUB_FLASHCTL.GO with OP 1 (R471). -/
def execFlashProgram (h : HostHdr) (s : State) : Host.Outcome State Fault Refusal :=
  hostWr h aHubFlashctl 0x80000001 {} s

/-- FLASH_ERASE: HUB_FLASHCTL.GO with OP 2 (R471). -/
def execFlashErase (h : HostHdr) (s : State) : Host.Outcome State Fault Refusal :=
  hostWr h aHubFlashctl 0x80000002 {} s

/-- HUB_NONCE (R458). -/
def execHubNonce (h : HostHdr) (i : Fin 12) (v : Word) (s : State) : Host.Outcome State Fault Refusal :=
  hostWr h (aHubNonce i) v {} s

/-- ATTEST_GO: HUB_ATTCTL.GO (R458, R472). -/
def execAttestGo (h : HostHdr) (s : State) : Host.Outcome State Fault Refusal :=
  hostWr h aHubAttctl 0x80000000 {} s

/-! ### Stacks, rings, light, links -/

/-- STACK_RETRAIN: a write of PB_MEMCTL (R169, R171). -/
def execStackRetrain (h : HostHdr) (st : StackId) (v : Word) (o : TrainOutcome) (s : State) : Host.Outcome State Fault Refusal :=
  hostWr h (aPbMemctl (st.val / 8) (st.val % 8)) v { train := o } s

/-- RNG_SUSPECT_CLEAR (R270). -/
def execRngSuspectClear (h : HostHdr) (p : PortId) (v : Word) (s : State) : Host.Outcome State Fault Refusal :=
  hostWr h (aRngSuspect p) v {} s

/-- RETEST: RNG_CTL.RETEST, the register's other bits as they are (R278, R281). -/
def execRetest (h : HostHdr) (p : PortId) (s : State) : Host.Outcome State Fault Refusal :=
  hostWr h (aRngCtl p) (4#32 ||| (s.rd (aRngCtl p) &&& 3#32)) {} s

/-- HO_GO: a write of LB_CTL (R294, R308). -/
def execHoGo (h : HostHdr) (b : BankId) (v : Word) (s : State) : Host.Outcome State Fault Refusal :=
  hostWr h (aLbCtl b) v {} s

/-- FORCE_DARK: a write of EYE_CTL (R303, R311). -/
def execForceDark (h : HostHdr) (x : XPort) (v : Word) (s : State) : Host.Outcome State Fault Refusal :=
  hostWr h (aEyeCtl x) v {} s

/-- LNK_CTL_DOWN: a write of LNK_CTL (R353). -/
def execLnkCtlDown (h : HostHdr) (x : XPort) (v : Word) (s : State) : Host.Outcome State Fault Refusal :=
  hostWr h (aLnkCtl x) v {} s

/-- RENEG: LNK_CTL.RENEG, DOWN as it is (R346, R353). -/
def execReneg (h : HostHdr) (x : XPort) (s : State) : Host.Outcome State Fault Refusal :=
  hostWr h (aLnkCtl x) (4#32 ||| (s.rd (aLnkCtl x) &&& 2#32)) {} s

/-- FLUSH: LNK_CTL.FLUSH, DOWN as it is (R343, R353). -/
def execFlush (h : HostHdr) (x : XPort) (s : State) : Host.Outcome State Fault Refusal :=
  hostWr h (aLnkCtl x) (1#32 ||| (s.rd (aLnkCtl x) &&& 2#32)) {} s

/-- HLK_CTL_RETRAIN (R423, R436). -/
def execHlkCtlRetrain (h : HostHdr) (s : State) : Host.Outcome State Fault Refusal :=
  hostWr h aHlkCtl 1 {} s

/-- HLK_CTL_RESET (R424, R436). -/
def execHlkCtlReset (h : HostHdr) (s : State) : Host.Outcome State Fault Refusal :=
  hostWr h aHlkCtl 2 {} s

/-! ### Guest -/

/-- GUEST_RESET: GFW_CTL.RESET written 1 (R236, R242). -/
def execGuestReset (h : HostHdr) (s : State) : Host.Outcome State Fault Refusal :=
  hostWr h aGfwCtl 1 {} s

/-- GUEST_RESET_RELEASE: GFW_CTL.RESET written 0 (R232, R242). -/
def execGuestResetRelease (h : HostHdr) (nonce : BitVec 384) (s : State) : Host.Outcome State Fault Refusal :=
  hostWr h aGfwCtl 0 { nonce := nonce } s

/-- GFW_OPEN: GFW_CTL.OPEN, with RESET 0 (R232, R242). -/
def execGfwOpen (h : HostHdr) (s : State) : Host.Outcome State Fault Refusal :=
  hostWr h aGfwCtl 2 {} s

/-- GFW_CLOSE: GFW_CTL.CLOSE, with RESET 0, which in RESET also releases the guest, with a nonce that is free (R232, R242). -/
def execGfwClose (h : HostHdr) (s : State) : Host.Outcome State Fault Refusal :=
  .next (hostCmd s h kRegWr .reg fun s =>
    let (s₁, x) := freeArg s aGfwCtl
    hostRegWrite s₁ h aGfwCtl 4 x)

/-! ### Collector, thermal and power, debug -/

/-- FLT_ACK (R483, R493). -/
def execFltAck (h : HostHdr) (v : Word) (s : State) : Host.Outcome State Fault Refusal :=
  hostWr h aFltAck v {} s

/-- FLT_STATUS1_CLEAR (R488). -/
def execFltStatus1Clear (h : HostHdr) (v : Word) (s : State) : Host.Outcome State Fault Refusal :=
  hostWr h aFltStatus1 v {} s

/-- FLT_INJ (R489). -/
def execFltInj (h : HostHdr) (k : Fin 10) (v : Word) (s : State) : Host.Outcome State Fault Refusal :=
  hostWr h (aFltInj k) v {} s

/-- FLT_IINJ (R490). -/
def execFltIinj (h : HostHdr) (v : Word) (s : State) : Host.Outcome State Fault Refusal :=
  hostWr h aFltIinj v {} s

/-- RECHECK: a write of TP_SENSCTL (R499, R521). -/
def execRecheck (h : HostHdr) (v : Word) (s : State) : Host.Outcome State Fault Refusal :=
  hostWr h aTpSensctl v {} s

/-- RETIRE: a write of TP_TDCTL (R512, R519). -/
def execRetire (h : HostHdr) (v : Word) (s : State) : Host.Outcome State Fault Refusal :=
  hostWr h aTpTdctl v {} s

/-- DIE_RESTORE: a write of TP_TDCTL (R514, R519). -/
def execDieRestore (h : HostHdr) (v : Word) (s : State) : Host.Outcome State Fault Refusal :=
  hostWr h aTpTdctl v {} s

/-- DBG_SAMPLE: its GO (R526, R549). -/
def execDbgSample (h : HostHdr) (d : DieId) (s : State) : Host.Outcome State Fault Refusal :=
  hostWr h (aDbgSample d) 1 {} s

/-- REEL_ENABLE: a write of DBG_REELCTL (R547). -/
def execReelEnable (h : HostHdr) (d : DieId) (v : Word) (s : State) : Host.Outcome State Fault Refusal :=
  hostWr h (aDbgReelctl d) v {} s

/-- FORCE: a write of DBG_TRIGCFG1 (R533, R548). -/
def execForce (h : HostHdr) (d : DieId) (v : Word) (s : State) : Host.Outcome State Fault Refusal :=
  hostWr h (aDbgTrigcfg1 d) v {} s

/-- DUMP_GO: DBG_DUMPCTL.GO, AUTO as it is (R536, R540). -/
def execDumpGo (h : HostHdr) (s : State) : Host.Outcome State Fault Refusal :=
  hostWr h aDbgDumpctl (0x80000000#32 ||| (s.rd aDbgDumpctl &&& 0x08000000#32)) {} s

/-- DUMP_ARM: DBG_DUMPCTL.ARM, AUTO as it is (R540). -/
def execDumpArm (h : HostHdr) (s : State) : Host.Outcome State Fault Refusal :=
  hostWr h aDbgDumpctl (0x20000000#32 ||| (s.rd aDbgDumpctl &&& 0x08000000#32)) {} s

end Sys2Proof.Machine
end

