-- ==== Sys2Proof/Machine/I3C.lean ====
section
/-! DEFINITION. The I3C target of the standby island: its pointer, its private transfers and its dynamic address (R558, R559,
R582). -/
namespace Sys2Proof.Machine

def setPtr (s : State) (a : Word) : State := { s with pins := { s.pins with i3cPtr := a } }

/-- The answer of a private read: the value, little-endian, then the status byte. -/
def setI3cOut (s : State) (v : Word) (st : Byte) : State :=
  { s with pins := { s.pins with i3cOut := leBytes 4 v.toNat ++ [st] } }

/-- I3C_POINTER_WRITE. The target answers once the island is out of its reset. -/
def execI3cPointerWrite (addr : Word) (s : State) : Host.Outcome State Fault Refusal :=
  .next (if s.boot.island then setPtr s addr else s)

/-- A register write under R558: the bits that I3C may not write keep their value. -/
def i3cPut (s : State) (a : Nat) (v : Word) : State :=
  if a % 4 ≠ 0 then accessFail s .i3c a
  else match i3cWrites a with
    | none => accessFail s .i3c a
    | some m => (regWrite s .i3c a ((s.rd a &&& ~~~m) ||| (v &&& m)) {}).1

/-- I3C_WRITE: the pointer moves whether or not the write succeeds. -/
def execI3cWrite (addr value : Word) (s : State) : Host.Outcome State Fault Refusal :=
  .next (if s.boot.island then setPtr (i3cPut s addr.toNat value) (addr + 4) else s)

/-- I3C_READ at the pointer: a pointer that is not aligned answers status 2 and stays. -/
def i3cGet (s : State) : State :=
  let p := s.pins.i3cPtr
  let a := p.toNat
  if a % 4 ≠ 0 then setI3cOut (accessFail s .i3c a) 0 2
  else if !i3cReads a then setPtr (setI3cOut (accessFail s .i3c a) 0 1) (p + 4)
  else
    let (s₁, v, ok) := regRead s .i3c a
    setPtr (setI3cOut s₁ v (if ok then 0 else 1)) (p + 4)

def execI3cRead (s : State) : Host.Outcome State Fault Refusal := .next (if s.boot.island then i3cGet s else s)

/-- DYNAMIC_ADDRESS_ASSIGNMENT: by ENTDAA, or by SETDASA that names the static address 0x3A. -/
def execDynamicAddressAssignment (setdasa : Option (BitVec 7)) (addr : BitVec 7) (s : State) : Host.Outcome State Fault Refusal :=
  .next (if s.boot.island ∧ (setdasa = none ∨ setdasa = some 0x3A) then { s with pins := { s.pins with i3cAddr := some addr } }
    else s)

end Sys2Proof.Machine
end

