-- ==== Sys2Proof/Machine/Dispatch.lean ====
section
/-! DEFINITION. Each command's meaning, one arm per row of the table. -/
namespace Sys2Proof.Machine

/-- The effect of a command on everything but the queue. -/
def exec (i : Instr) (s : State) : Host.Outcome State Fault Refusal :=
  match i with
  | .regRd h addr => Sys2Proof.Machine.execRegRd h addr s
  | .regWr h addr value => Sys2Proof.Machine.execRegWr h addr value s
  | .regWrb h addr data => Sys2Proof.Machine.execRegWrb h addr data s
  | .memRd h pa linesM1 => Sys2Proof.Machine.execMemRd h pa linesM1 s
  | .memWr h pa data => Sys2Proof.Machine.execMemWr h pa data s
  | .load h c => Sys2Proof.Machine.execLoad h c s
  | .unload h c => Sys2Proof.Machine.execUnload h c s
  | .startStep h c downbeat data => Sys2Proof.Machine.execStartStep h c downbeat data s
  | .run h c => Sys2Proof.Machine.execRun h c s
  | .preempt h c => Sys2Proof.Machine.execPreempt h c s
  | .resume h c => Sys2Proof.Machine.execResume h c s
  | .save h c base data => Sys2Proof.Machine.execSave h c base data s
  | .restore h c base data => Sys2Proof.Machine.execRestore h c base data s
  | .saveCommit c acked => Sys2Proof.Machine.execSaveCommit c acked s
  | .restoreCommit c => Sys2Proof.Machine.execRestoreCommit c s
  | .figureFetch d k ahead => Sys2Proof.Machine.execFigureFetch d k ahead s
  | .matmul d k entropy => Sys2Proof.Machine.execMatmul d k entropy s
  | .vecmap d k => Sys2Proof.Machine.execVecmap d k s
  | .move d k => Sys2Proof.Machine.execMove d k s
  | .stream d k => Sys2Proof.Machine.execStream d k s
  | .send d k => Sys2Proof.Machine.execSend d k s
  | .sample d k entropy => Sys2Proof.Machine.execSample d k entropy s
  | .wait d k => Sys2Proof.Machine.execWait d k s
  | .signal d k => Sys2Proof.Machine.execSignal d k s
  | .skipIf d k => Sys2Proof.Machine.execSkipIf d k s
  | .halt d k => Sys2Proof.Machine.execHalt d k s
  | .figureAck d k muBusy vuBusy => Sys2Proof.Machine.execFigureAck d k muBusy vuBusy s
  | .contextSwitch d k => Sys2Proof.Machine.execContextSwitch d k s
  | .preemptComplete c => Sys2Proof.Machine.execPreemptComplete c s
  | .stepEnd c => Sys2Proof.Machine.execStepEnd c s
  | .syncSignal obj inc c d k => Sys2Proof.Machine.execSyncSignal obj inc c d k s
  | .waitreg obj thr c d k => Sys2Proof.Machine.execWaitreg obj thr c d k s
  | .waitcancel obj d k => Sys2Proof.Machine.execWaitcancel obj d k s
  | .read obj c d k => Sys2Proof.Machine.execRead obj c d k s
  | .syncRelease obj c d k => Sys2Proof.Machine.execSyncRelease obj c d k s
  | .value obj c d k x => Sys2Proof.Machine.execValue obj c d k x s
  | .syncRefusal kind obj c d k => Sys2Proof.Machine.execSyncRefusal kind obj c d k s
  | .hubSyncval h obj v => Sys2Proof.Machine.execHubSyncval h obj v s
  | .hubSynccfg h obj v => Sys2Proof.Machine.execHubSynccfg h obj v s
  | .remoteSignal x m tag obj inc c => Sys2Proof.Machine.execRemoteSignal x m tag obj inc c s
  | .sigAck x tag status => Sys2Proof.Machine.execSigAck x tag status s
  | .post cell tag index count v c d k => Sys2Proof.Machine.execPost cell tag index count v c d k s
  | .result cell tag v d => Sys2Proof.Machine.execResult cell tag v d s
  | .anchorRelease cell tag index c d k => Sys2Proof.Machine.execAnchorRelease cell tag index c d k s
  | .hubAcellFree h v => Sys2Proof.Machine.execHubAcellFree h v s
  | .widePartial d p entry payload => Sys2Proof.Machine.execWidePartial d p entry payload s
  | .aPost x m cell tag index count v => Sys2Proof.Machine.execAPost x m cell tag index count v s
  | .aRel x m cell tag index => Sys2Proof.Machine.execARel x m cell tag index s
  | .aRes x cell tag v => Sys2Proof.Machine.execARes x cell tag v s
  | .segmentIssue d k => Sys2Proof.Machine.execSegmentIssue d k s
  | .segmentComplete d k c seg fault => Sys2Proof.Machine.execSegmentComplete d k c seg fault s
  | .walkRequest tlb c va => Sys2Proof.Machine.execWalkRequest tlb c va s
  | .walkReply tlb c va r => Sys2Proof.Machine.execWalkReply tlb c va r s
  | .hubCtxptr1 h c v => Sys2Proof.Machine.execHubCtxptr1 h c v s
  | .tlbInvalidate h v => Sys2Proof.Machine.execTlbInvalidate h v s
  | .tlbInvalidateDone => Sys2Proof.Machine.execTlbInvalidateDone s
  | .stackRequest requester st offset bytes => Sys2Proof.Machine.execStackRequest requester st offset bytes s
  | .writeCrcFail st o seg => Sys2Proof.Machine.execWriteCrcFail st o seg s
  | .patrolScrub st line => Sys2Proof.Machine.execPatrolScrub st line s
  | .stackCatastrophicTemp st => Sys2Proof.Machine.execStackCatastrophicTemp st s
  | .stackRetrain h st v o => Sys2Proof.Machine.execStackRetrain h st v o s
  | .zeroingDone st => Sys2Proof.Machine.execZeroingDone st s
  | .rdReq x m tag pa len => Sys2Proof.Machine.execRdReq x m tag pa len s
  | .wrReq x m tag pa data => Sys2Proof.Machine.execWrReq x m tag pa data s
  | .rdData x tag status data => Sys2Proof.Machine.execRdData x tag status data s
  | .wrAck x tag status => Sys2Proof.Machine.execWrAck x tag status s
  | .sramInitDone d => Sys2Proof.Machine.execSramInitDone d s
  | .landingWrite d p => Sys2Proof.Machine.execLandingWrite d p s
  | .slotStart => Sys2Proof.Machine.execSlotStart s
  | .ledgerRequest r => Sys2Proof.Machine.execLedgerRequest r s
  | .burstReceive src d p lock lanes => Sys2Proof.Machine.execBurstReceive src d p lock lanes s
  | .iack src split die ack bitmap => Sys2Proof.Machine.execIack src split die ack bitmap s
  | .iackTimeout src split die => Sys2Proof.Machine.execIackTimeout src split die s
  | .planLoad h => Sys2Proof.Machine.execPlanLoad h s
  | .planCheckDone => Sys2Proof.Machine.execPlanCheckDone s
  | .planSwitchRequest h => Sys2Proof.Machine.execPlanSwitchRequest h s
  | .planSwitch => Sys2Proof.Machine.execPlanSwitch s
  | .meshElementFail e => Sys2Proof.Machine.execMeshElementFail e s
  | .meshRerouteDone => Sys2Proof.Machine.execMeshRerouteDone s
  | .guestMemoryRequest wr pa len data => Sys2Proof.Machine.execGuestMemoryRequest wr pa len data s
  | .guestSyncMessage kind obj slot => Sys2Proof.Machine.execGuestSyncMessage kind obj slot s
  | .guestReset h => Sys2Proof.Machine.execGuestReset h s
  | .guestResetRelease h nonce => Sys2Proof.Machine.execGuestResetRelease h nonce s
  | .attestationReport formed meas key sig => Sys2Proof.Machine.execAttestationReport formed meas key sig s
  | .attestationTimeout => Sys2Proof.Machine.execAttestationTimeout s
  | .gfwOpen h => Sys2Proof.Machine.execGfwOpen h s
  | .gfwClose h => Sys2Proof.Machine.execGfwClose h s
  | .usableSetChange p tx l enter => Sys2Proof.Machine.execUsableSetChange p tx l enter s
  | .mfUpdate p l eye corr syms => Sys2Proof.Machine.execMfUpdate p l eye corr syms s
  | .lockUpdate p tx l code settled => Sys2Proof.Machine.execLockUpdate p tx l code settled s
  | .lockLoss p tx l => Sys2Proof.Machine.execLockLoss p tx l s
  | .ringHop p tx l found => Sys2Proof.Machine.execRingHop p tx l found s
  | .classChange d cls => Sys2Proof.Machine.execClassChange d cls s
  | .ffTick p => Sys2Proof.Machine.execFfTick p s
  | .ffLearn p tx l => Sys2Proof.Machine.execFfLearn p tx l s
  | .ffSuspendEnd p => Sys2Proof.Machine.execFfSuspendEnd p s
  | .calTurnStart x => Sys2Proof.Machine.execCalTurnStart x s
  | .calMeasurementDone p m => Sys2Proof.Machine.execCalMeasurementDone p m s
  | .rngSuspectClear h p v => Sys2Proof.Machine.execRngSuspectClear h p v s
  | .retest h p => Sys2Proof.Machine.execRetest h p s
  | .marginTestDone p nrz pam4 pam6 => Sys2Proof.Machine.execMarginTestDone p nrz pam4 pam6 s
  | .lgtSave h => Sys2Proof.Machine.execLgtSave h s
  | .lgtPeriodic => Sys2Proof.Machine.execLgtPeriodic s
  | .lgtWriteDone => Sys2Proof.Machine.execLgtWriteDone s
  | .pmReport b laser pm => Sys2Proof.Machine.execPmReport b laser pm s
  | .lmfUpdate b w obs => Sys2Proof.Machine.execLmfUpdate b w obs s
  | .driveStep b w => Sys2Proof.Machine.execDriveStep b w s
  | .handoverStart b w => Sys2Proof.Machine.execHandoverStart b w s
  | .hoGo h b v => Sys2Proof.Machine.execHoGo h b v s
  | .spareLocked b => Sys2Proof.Machine.execSpareLocked b s
  | .shutterOpen b => Sys2Proof.Machine.execShutterOpen b s
  | .sourceRampDone b => Sys2Proof.Machine.execSourceRampDone b s
  | .handoverCheck b passed => Sys2Proof.Machine.execHandoverCheck b passed s
  | .handoverCutIn b => Sys2Proof.Machine.execHandoverCutIn b s
  | .spareTuneTimeout b => Sys2Proof.Machine.execSpareTuneTimeout b s
  | .bankRecordWrite => Sys2Proof.Machine.execBankRecordWrite s
  | .lossOfLight x => Sys2Proof.Machine.execLossOfLight x s
  | .ferruleOpen f => Sys2Proof.Machine.execFerruleOpen f s
  | .forceDark h x v => Sys2Proof.Machine.execForceDark h x v s
  | .lb6LightLoss => Sys2Proof.Machine.execLb6LightLoss s
  | .darkConfirmTimeout x => Sys2Proof.Machine.execDarkConfirmTimeout x s
  | .eyeProbe x => Sys2Proof.Machine.execEyeProbe x s
  | .lightDetected x => Sys2Proof.Machine.execLightDetected x s
  | .armedTimeout x => Sys2Proof.Machine.execArmedTimeout x s
  | .flitReceive l lanes heard => Sys2Proof.Machine.execFlitReceive l lanes heard s
  | .flitSend l => Sys2Proof.Machine.execFlitSend l s
  | .nak l seq => Sys2Proof.Machine.execNak l seq s
  | .replayTimer l => Sys2Proof.Machine.execReplayTimer l s
  | .laneAlignLoss x c => Sys2Proof.Machine.execLaneAlignLoss x c s
  | .announce x map gen q => Sys2Proof.Machine.execAnnounce x map gen q s
  | .accept x map gen => Sys2Proof.Machine.execAccept x map gen s
  | .laneReq x l ret => Sys2Proof.Machine.execLaneReq x l ret s
  | .announceTimeout x => Sys2Proof.Machine.execAnnounceTimeout x s
  | .mapChange x => Sys2Proof.Machine.execMapChange x s
  | .retrain x cause => Sys2Proof.Machine.execRetrain x cause s
  | .ready x allAligned => Sys2Proof.Machine.execReady x allAligned s
  | .retrainTimeout x => Sys2Proof.Machine.execRetrainTimeout x s
  | .down x cause => Sys2Proof.Machine.execDown x cause s
  | .lnkCtlDown h x v => Sys2Proof.Machine.execLnkCtlDown h x v s
  | .reneg h x => Sys2Proof.Machine.execReneg h x s
  | .graceExpiry x => Sys2Proof.Machine.execGraceExpiry x s
  | .flush h x => Sys2Proof.Machine.execFlush h x s
  | .advertise x a => Sys2Proof.Machine.execAdvertise x a s
  | .confirm x cf => Sys2Proof.Machine.execConfirm x cf s
  | .negotiationRetry x => Sys2Proof.Machine.execNegotiationRetry x s
  | .mfrep x vals => Sys2Proof.Machine.execMfrep x vals s
  | .caldata x l mode levels => Sys2Proof.Machine.execCaldata x l mode levels s
  | .probeTimer x frac => Sys2Proof.Machine.execProbeTimer x frac s
  | .probe x t1 num frac2 frac3 => Sys2Proof.Machine.execProbe x t1 num frac2 frac3 s
  | .echo x t1 t2 t3 num frac4 => Sys2Proof.Machine.execEcho x t1 t2 t3 num frac4 s
  | .echoTimeout x num => Sys2Proof.Machine.execEchoTimeout x num s
  | .beatStep => Sys2Proof.Machine.execBeatStep s
  | .realign h => Sys2Proof.Machine.execRealign h s
  | .syncOutPulse => Sys2Proof.Machine.execSyncOutPulse s
  | .syncInEdge frac => Sys2Proof.Machine.execSyncInEdge frac s
  | .renewTimer => Sys2Proof.Machine.execRenewTimer s
  | .renew lease sent => Sys2Proof.Machine.execRenew lease sent s
  | .grant lease => Sys2Proof.Machine.execGrant lease s
  | .refuse lease => Sys2Proof.Machine.execRefuse lease s
  | .leadCutoff => Sys2Proof.Machine.execLeadCutoff s
  | .takeover => Sys2Proof.Machine.execTakeover s
  | .groupfail x m => Sys2Proof.Machine.execGroupfail x m s
  | .yield lease d => Sys2Proof.Machine.execYield lease d s
  | .yieldStop => Sys2Proof.Machine.execYieldStop s
  | .yieldTakeover => Sys2Proof.Machine.execYieldTakeover s
  | .prtCtlYield h => Sys2Proof.Machine.execPrtCtlYield h s
  | .solo h => Sys2Proof.Machine.execSolo h s
  | .prtCtlJoin h => Sys2Proof.Machine.execPrtCtlJoin h s
  | .join => Sys2Proof.Machine.execJoin s
  | .copyRound => Sys2Proof.Machine.execCopyRound s
  | .rejoinStepCopy c asLead flag step rseed sseed vals => Sys2Proof.Machine.execRejoinStepCopy c asLead flag step rseed sseed vals s
  | .failback atLead => Sys2Proof.Machine.execFailback atLead s
  | .heldResultExpiry => Sys2Proof.Machine.execHeldResultExpiry s
  | .hash r => Sys2Proof.Machine.execHash r s
  | .hashack id => Sys2Proof.Machine.execHashack id s
  | .hashTimeout id => Sys2Proof.Machine.execHashTimeout id s
  | .mchalt cause id => Sys2Proof.Machine.execMchalt cause id s
  | .mcClear h => Sys2Proof.Machine.execMcClear h s
  | .hubModeWrite h v => Sys2Proof.Machine.execHubModeWrite h v s
  | .idleEntry => Sys2Proof.Machine.execIdleEntry s
  | .idleExit => Sys2Proof.Machine.execIdleExit s
  | .trainingBlock lane syms => Sys2Proof.Machine.execTrainingBlock lane syms s
  | .trainingRestart => Sys2Proof.Machine.execTrainingRestart s
  | .hlkRetrain => Sys2Proof.Machine.execHlkRetrain s
  | .hlkRetrainTimeout => Sys2Proof.Machine.execHlkRetrainTimeout s
  | .hlkCtlRetrain h => Sys2Proof.Machine.execHlkCtlRetrain h s
  | .ksyncLoss => Sys2Proof.Machine.execKsyncLoss s
  | .hostLinkReset cause => Sys2Proof.Machine.execHostLinkReset cause s
  | .hlkCtlReset h => Sys2Proof.Machine.execHlkCtlReset h s
  | .linkUp => Sys2Proof.Machine.execLinkUp s
  | .efmReport lane e heard => Sys2Proof.Machine.execEfmReport lane e heard s
  | .tapRequest lane pre post => Sys2Proof.Machine.execTapRequest lane pre post s
  | .standbyPowerGood => Sys2Proof.Machine.execStandbyPowerGood s
  | .standbyPowerLoss ms => Sys2Proof.Machine.execStandbyPowerLoss ms s
  | .start guest found => Sys2Proof.Machine.execStart guest found s
  | .startPhaseDone f => Sys2Proof.Machine.execStartPhaseDone f s
  | .rstNAssert ns => Sys2Proof.Machine.execRstNAssert ns s
  | .hubRstWarm h v => Sys2Proof.Machine.execHubRstWarm h v s
  | .quiesce h v => Sys2Proof.Machine.execQuiesce h v s
  | .quiesced => Sys2Proof.Machine.execQuiesced s
  | .mainPowerLoss => Sys2Proof.Machine.execMainPowerLoss s
  | .flashRead h => Sys2Proof.Machine.execFlashRead h s
  | .flashProgram h => Sys2Proof.Machine.execFlashProgram h s
  | .flashErase h => Sys2Proof.Machine.execFlashErase h s
  | .flashDone err => Sys2Proof.Machine.execFlashDone err s
  | .hubNonce h n v => Sys2Proof.Machine.execHubNonce h n v s
  | .attestGo h => Sys2Proof.Machine.execAttestGo h s
  | .attestDone => Sys2Proof.Machine.execAttestDone s
  | .faultEvent r => Sys2Proof.Machine.execFaultEvent r s
  | .escalation src => Sys2Proof.Machine.execEscalation src s
  | .fltAck h v => Sys2Proof.Machine.execFltAck h v s
  | .fltStatus1Clear h v => Sys2Proof.Machine.execFltStatus1Clear h v s
  | .errnPulseEnd => Sys2Proof.Machine.execErrnPulseEnd s
  | .fltInj h k v => Sys2Proof.Machine.execFltInj h k v s
  | .fltIinj h v => Sys2Proof.Machine.execFltIinj h v s
  | .sensorUpdate n a b => Sys2Proof.Machine.execSensorUpdate n a b s
  | .sensorBroken n cause => Sys2Proof.Machine.execSensorBroken n cause s
  | .sensorSelfcheck n pass agree => Sys2Proof.Machine.execSensorSelfcheck n pass agree s
  | .recheck h v => Sys2Proof.Machine.execRecheck h v s
  | .thermalTrip n => Sys2Proof.Machine.execThermalTrip n s
  | .throttleEval binds rates => Sys2Proof.Machine.execThrottleEval binds rates s
  | .powerEval power peak10 volt => Sys2Proof.Machine.execPowerEval power peak10 volt s
  | .inputVoltageFault => Sys2Proof.Machine.execInputVoltageFault s
  | .stageFault dom => Sys2Proof.Machine.execStageFault dom s
  | .refclkFault => Sys2Proof.Machine.execRefclkFault s
  | .retire h v => Sys2Proof.Machine.execRetire h v s
  | .retireDone d => Sys2Proof.Machine.execRetireDone d s
  | .dieRestore h v => Sys2Proof.Machine.execDieRestore h v s
  | .dieRestoreDone d o => Sys2Proof.Machine.execDieRestoreDone d o s
  | .dbgSample h d => Sys2Proof.Machine.execDbgSample h d s
  | .reelEnable h d v => Sys2Proof.Machine.execReelEnable h d v s
  | .reelFlush d => Sys2Proof.Machine.execReelFlush d s
  | .force h d v => Sys2Proof.Machine.execForce h d v s
  | .traceExport => Sys2Proof.Machine.execTraceExport s
  | .watchdogExpiry d k => Sys2Proof.Machine.execWatchdogExpiry d k s
  | .dumpGo h => Sys2Proof.Machine.execDumpGo h s
  | .dumpArm h => Sys2Proof.Machine.execDumpArm h s
  | .dumpCommit => Sys2Proof.Machine.execDumpCommit s
  | .i3cPointerWrite addr => Sys2Proof.Machine.execI3cPointerWrite addr s
  | .i3cWrite addr value => Sys2Proof.Machine.execI3cWrite addr value s
  | .i3cRead => Sys2Proof.Machine.execI3cRead s
  | .laneAligned x c => Sys2Proof.Machine.execLaneAligned x c s
  | .frameGenerationChange x commas => Sys2Proof.Machine.execFrameGenerationChange x commas s
  | .ferruleClose f => Sys2Proof.Machine.execFerruleClose f s
  | .hlkLaneAlignLoss c => Sys2Proof.Machine.execHlkLaneAlignLoss c s
  | .rxElectricalIdle => Sys2Proof.Machine.execRxElectricalIdle s
  | .rxExitBurst b => Sys2Proof.Machine.execRxExitBurst b s
  | .lctlRepeat x => Sys2Proof.Machine.execLctlRepeat x s
  | .dumpStop => Sys2Proof.Machine.execDumpStop s
  | .errNDeferredPulse => Sys2Proof.Machine.execErrNDeferredPulse s
  | .dynamicAddressAssignment setdasa addr => Sys2Proof.Machine.execDynamicAddressAssignment setdasa addr s

end Sys2Proof.Machine
end

