-- ==== Sys2Proof/Machine/Idle.lean ====
section
/-! DEFINITION. What a step does when no command waits: one beat passes (log entry 1). -/
namespace Sys2Proof.Machine

/-- A pending write of HUB_MODE takes effect (R397). -/
def applyMode (s : State) : State :=
  match s.modeNext with
  | none => s
  | some m => { s with modeNext := none }.setFld aHubMode 1 0 m.toNat

/-- SYNC_OUT falls 8 beats after it rose (R364). -/
def endSyncOut (s : State) : State :=
  match s.pins.syncOut with
  | some b => if 8 ≤ (s.beat - b).toNat then { s with pins := { s.pins with syncOut := none } } else s
  | none => s

/-- Written windows come into force where none of the die's Callers has a figure of the context running (R111). -/
def newWindows (s : State) : State :=
  { s with wins := s.wins.filter fun e => allCallers.any fun p =>
      p.1.val = e.1 / 64 && match (s.caller p.1 p.2).run with | some r => r.ctx.val = e.1 % 64 | none => false }

/-- BEATS: a beat in which a Caller runs a figure (R523). -/
def countBeats (s : State) : State :=
  allCallers.foldl (fun s p => match (s.caller p.1 p.2).run with
    | some r => ctxCount (dieCount s p.1 cntBeats 1) r.ctx p.1 cntBeats 1
    | none => s) s

/-- A beat without progress, for every Caller for which it counts as one (R535). -/
def countIdle (s : State) : State :=
  allCallers.foldl (fun s p => if idles s p.1 p.2 then
      { s with dbg := { s.dbg with
          idleBeats := SMap.set (fun _ => 0) s.dbg.idleBeats (callerNo p.1 p.2) (idleCount s p.1 p.2 + 1) } }
    else s) s

/-- Each die writes one whole line of buffered reel records, and a GAP takes a place that comes free (R531). -/
def writeReels (s : State) : State :=
  (List.finRange 12).foldl (fun s d => match (s.reel d).buf.find? fun e => e.1 % 8 = 7 with
    | some e => reelGap (reelWriteLine s d (e.1 / 8)) d
    | none => reelGap s d) s

/-- Picoseconds that the present beat lasts: 1 ns and what a down-spread of at most 0.5 % adds (R5). -/
def beatPs (s : State) : Nat := 1000 + Config.spread s.clock % 6

/-- XSPI_RST_N is released 10 µs after it fell (R581). -/
def endXspiReset (p : Pins) (clock : Nat) : Pins :=
  match p.xspiReset with
  | some t => if t + 10000000 ≤ clock then { p with xspiReset := none } else p
  | none => p

/-- A beat begins: the one before has passed in real time (R5), and nothing has happened in the new one. -/
def newBeat (s : State) : State :=
  { s with
    clock := s.clock + beatPs s
    pins := endXspiReset s.pins (s.clock + beatPs s)
    now := { inv := s.rd aHubInv, meminv := s.rd aHubMeminv } }

/-- One beat while the hub is on. -/
def beatPasses (s : State) : State :=
  let s₀ := { newBeat s with beat := s.beat + 1 }
  let guard := if s₀.beat.toNat % 32 = 0 then applyValues (guardChanges s₀) else s₀
  let s₁ := endSyncOut (applyMode (newWindows guard))
  tickRetire (releaseTags (tickTimers (beatPs s) (writeReels (countIdle (countBeats s₁)))))

/-- One beat: the hub's beat counter, which HUB_SLOT shows, goes up by one with all that follows the beat (R30, R238). It
counts while the hub is out of reset. -/
def idle (s : State) : State := if domOn s 16 then beatPasses s else newBeat s

end Sys2Proof.Machine
end

