-- ==== Sys2Proof/Safety.lean ====
section
/-! DEFINITION. What holds of every state that a run reaches, what a step leaves as it was, and when a host's message gets
through: the terms the statements use. -/
namespace Sys2Proof.Machine

/-- Memory in its one canonical form. -/
def Memory.wf (s : State) : Bool := SMap.wf (fun _ => (0 : Byte)) s.mem

/-- The registers in their one canonical form. -/
def Registers.wf (s : State) : Bool := SMap.wf regDefault s.regs

/-- `t` follows `s` with every register but those listed, and every byte of memory, as before. -/
def Keeps (s t : State) (regs : List Nat) : Prop :=
  (∀ a, a ∉ regs → t.rd a = s.rd a) ∧ ∀ pa, t.byte pa = s.byte pa

/-- `t` follows `s` with every byte of memory as before. -/
def KeepsMemory (s t : State) : Prop := ∀ pa, t.byte pa = s.byte pa

/-- `t` has the Callers, their context states, the sync waiters, the anchor cells, the translations, the transfers, the contexts
and the start state of `s`. -/
def KeepsWork (s t : State) : Prop :=
  t.callers = s.callers ∧ t.cctx = s.cctx ∧ t.waiters = s.waiters ∧ t.cells = s.cells ∧ t.tlb = s.tlb ∧ t.segs = s.segs ∧
    t.ctxs = s.ctxs ∧ t.mesh = s.mesh ∧ t.links = s.links ∧ t.boot = s.boot

/-- No die's reel is on: no record of a Caller's event goes to SRAM (R529). -/
def ReelsOff (s : State) : Prop := ∀ d : DieId, s.bit (aDbgReelctl d) 31 = false

/-- The header of a command that is a host's message, and what the message is for its privilege (R426, R528). -/
def hostPart : Instr → Option (HostHdr × HostKind)
  | .regRd h _ | .regWr h _ _ | .regWrb h _ _ => some (h, .reg)
  | .memRd h _ _ | .memWr h _ _ => some (h, .mem)
  | .load h c | .unload h c | .startStep h c _ _ | .run h c | .preempt h c | .resume h c | .save h c _ _ | .restore h c _ _ =>
    some (h, .ctx c)
  | .hubSyncval h _ _ | .hubSynccfg h _ _ | .hubAcellFree h _ | .hubCtxptr1 h _ _ | .tlbInvalidate h _ | .stackRetrain h _ _ _
  | .planLoad h | .planSwitchRequest h | .guestReset h | .guestResetRelease h _ | .gfwOpen h | .gfwClose h
  | .rngSuspectClear h _ _ | .retest h _ | .lgtSave h | .hoGo h _ _ | .forceDark h _ _ | .lnkCtlDown h _ _ | .reneg h _
  | .flush h _ | .realign h | .prtCtlYield h | .solo h | .prtCtlJoin h | .mcClear h | .hubModeWrite h _ | .hlkCtlRetrain h
  | .hlkCtlReset h | .hubRstWarm h _ | .quiesce h _ | .flashRead h | .flashProgram h | .flashErase h | .hubNonce h _ _
  | .attestGo h | .fltAck h _ | .fltStatus1Clear h _ | .fltInj h _ _ | .fltIinj h _ | .recheck h _ | .retire h _
  | .dieRestore h _ | .dbgSample h _ | .reelEnable h _ _ | .force h _ _ | .dumpGo h | .dumpArm h => some (h, .reg)
  | _ => none

/-- The state once a host's message is accepted: its channel's count has gone up (R438). -/
def accepted (s : State) (h : HostHdr) : State := s.count (aHlkAccept h.ch) 31 0 1

/-- A host's message comes on the selected path, is well formed, comes with management privilege, and the module is READY with
the hub on: it is applied (R426, R434, R444, R528). -/
def HostAdmits (s : State) (h : HostHdr) : Prop :=
  hostOpen s = true ∧ h.x15 = s.x15Host ∧ h.rsvd = 0 ∧ h.chField = h.ch ∧ ctxPrivileged s h.ch = false ∧ bootState s = bootReady

/-- A command is answered OK on its own channel: `u` is the state in which its effect is made, and then it completes (R430). -/
def AnswersOk (i : Instr) (s u : State) (h : HostHdr) (kind : Byte) (c : CtxId) (arg : BitVec 48) (data : List Byte) : Prop :=
  exec i s = .next (u.complete (keyOf h) kind c .ok arg data)

/-- The half of `size` bytes at a local address holds a committed image of generation `g`: COMMIT, both checks, and every section
within the half (R152, R155). -/
def CommittedHalf (s : State) (half size g : Nat) : Prop :=
  let b := s.bytes half 256
  fieldAt b 252 4 = 0x434F4D54 ∧ fieldAt b 248 4 = (crc32 (b.take 248)).toNat ∧ fieldAt b 8 8 = g ∧
    ∃ e, headerEnd b size = some e ∧ fieldAt b 184 8 = (crc64 (s.bytes (half + 256) (e - 256))).toNat

/-- Commands run one after another, a stopped one leaving the state as it is. -/
def runAll : List Instr → State → State
  | [], s => s
  | i :: is, s => runAll is (match exec i s with | .next t => t | _ => s)

/-- A Caller can launch figure `f`, of opcode class `op`, for context `c` now, and the figure keeps R116 (R127). -/
def Launches (s : State) (d : DieId) (k : CallerId) (op : Nat) (c : CtxId) (f : List Byte) : Prop :=
  canLaunch s d k = some (c, f) ∧ checkFigure f c = none ∧ figOp f = op

/-- As `Launches`, with a 64-byte descriptor `b` inside the context's window, in a machine whose memory words hold no error, with
no pattern armed for the dies' SRAM and buses and the die's reel off. -/
def CleanLaunch (s : State) (d : DieId) (k : CallerId) (op : Nat) (c : CtxId) (f b : List Byte) : Prop :=
  Launches s d k op c f ∧ s.ecc = [] ∧ s.bit (aFltInj 0) 31 = false ∧ s.bit (aFltInj 1) 31 = false ∧ s.bit (aDbgReelctl d) 31 = false ∧
    inWindow (ctxWindow s d c) (figDp f 0) 64 = true ∧ b = s.bytes (sramPa d (figDp f 0)) 64

/-- The running figure has done all that its acknowledgement waits for: its partials have places, its segments are complete, or
its flits have all been acknowledged (R77, R98, R117). -/
def FigureDone (s : State) (d : DieId) (k : CallerId) (r : Running) : Prop :=
  match r.work with
  | .done =>
    (figOp r.fig = 1 → (matDesc r.desc).outMode = 1 → flitsPlaced s (matDesc r.desc).entry (originOf d k r) = true) ∧
      (figOp r.fig = 2 → (vecDesc r.desc).sends = true → flitsPlaced s (vecDesc r.desc).entry (originOf d k r) = true)
  | .xfer next failed _ => failed = none ∧ segsLeft s d k r.ctx = 0 ∧ (segments (xferDesc r.desc)).length ≤ next
  | .send next => sendFlits (sendDesc r.desc) ≤ next ∧ flitsOf s (originOf d k r) = 0
  | _ => False

/-- Every range lies in the context's window on the die. -/
def AllInWindow (s : State) (d : DieId) (c : CtxId) (rs : List (Nat × Nat)) : Prop :=
  ∀ w ∈ rs, inWindow (ctxWindow s d c) w.1 w.2 = true

end Sys2Proof.Machine
end

