-- ==== Sys2Proof/Certificates/Slice0/Obligations.lean ====
section
/-! DEFINITION. The statements for the provers: what the commands of the module do, by the rules of the spec. -/
open Sys2Proof Sys2Proof.Machine

/-! ### The machine -/

/-- With a command at the front of the queue, a step is `exec` of it with the queue's rest. An empty queue with the hub off
leaves the state as it is: the model's choice of log entry 1. -/
def Obligations.StepRunsFrontCommand : Prop :=
  (∀ (c : Instr) (rest : List Instr) (s : State), s.pending = c :: rest → step s = exec c { s with pending := rest }) ∧
    ∀ s : State, s.pending = [] → domOn s 16 = false → step s = .next s

/-- No command faults and none is refused, in any state. -/
def Obligations.EveryCommandAnswersNext : Prop := ∀ (i : Instr) (s : State), ∃ t, exec i s = .next t

/-- What reset leaves. The bytes of memory are the model's choice where the spec gives none (log entry 4). -/
def Obligations.ResetState : Prop :=
  (∀ a, State.reset.rd a = regDefault a) ∧ (∀ pa, State.reset.byte pa = 0) ∧ Memory.wf State.reset = true ∧
    Registers.wf State.reset = true ∧ bootState State.reset = 0 ∧ fatalLatched State.reset = false ∧
    (∀ c, ctxState State.reset c = ctxEmpty) ∧ State.reset.fld aGfwState 2 0 = 1 ∧ State.reset.bit aGfwCtl 0 = true ∧
    State.reset.pending = []

/-- The canonical form of memory and registers is an invariant of every step, from every state. -/
def Obligations.StepKeepsCanonicalForm : Prop :=
  ∀ s t : State, Memory.wf s = true → Registers.wf s = true → step s = .next t → Memory.wf t = true ∧ Registers.wf t = true

/-- Commands are taken first in, first out, whatever they do. -/
def Obligations.StepTakesOneCommand : Prop := ∀ s t : State, step s = .next t → t.pending = s.pending.tail

/-! ### Host messages -/

/-- Host messages that are not applied. -/
def Obligations.UnappliedHostMessages : Prop :=
  ∀ (i : Instr) (h : HostHdr) (k : HostKind) (s : State), hostPart i = some (h, k) →
    (hostOpen s = false → exec i s = .next s) ∧
    (hostOpen s = true → ∃ kind, let answer (st : Status) := (accepted s h).complete (keyOf h) kind k.ctxOf st 0 []
      (h.x15 ≠ s.x15Host → exec i s = .next (answer .hostSelect)) ∧
      (h.x15 = s.x15Host → h.rsvd ≠ 0 ∨ h.chField ≠ h.ch → exec i s = .next (answer .format)) ∧
      (h.x15 = s.x15Host → h.rsvd = 0 → h.chField = h.ch → ctxPrivileged s h.ch = false → bootState s ≠ bootReady → k ≠ .reg →
        exec i s = .next (answer .state)))

/-- Isolation of command channels (R528). -/
def Obligations.ContextChannelIsolation : Prop :=
  ∀ (i : Instr) (h : HostHdr) (k : HostKind) (s : State), hostPart i = some (h, k) → hostOpen s = true →
    ctxPrivileged s h.ch = true → (∀ c, k = .ctx c → chanReaches s h.ch c = false) →
    (∀ a, i = .regRd h a → apertureReach s h.ch a.toNat = false) →
    ∃ t, exec i s = .next t ∧ Keeps s t [aHlkAccept h.ch, aHlkRetq] ∧ KeepsWork s t

/-- Where the module's messages to the host go (R425, R430, R433); a TOKEN is held back in those states. -/
def Obligations.MessagesToHost : Prop :=
  (∀ (s : State) (key : CplKey) (kind : Byte) (c : CtxId) (st : Status) (arg : BitVec 48) (data : List Byte),
    s.complete key kind c st arg data =
      if key.nocpl = true ∧ st = .ok then s else s.toHost (.cpl key kind c st arg data)) ∧
  (∀ (s : State) (m : HostMsg), let q : Sent := { msg := m, shadow := decide (prtState s ∈ [3, 4, 5]) }
    (hostUp s = true → s.toHost m = { s with hostOut := s.hostOut ++ [q] }) ∧
    (hostUp s = false → s.retq.length < 4096 → s.toHost m = { s with retq := s.retq ++ [q] }) ∧
    (hostUp s = false → s.retq.length = 4096 → (s.toHost m).retq = s.retq.tail ++ [q] ∧ (s.toHost m).hostOut = s.hostOut ∧
      (s.toHost m).fld aHlkRetq 31 16 = min (s.fld aHlkRetq 31 16 + 1) 65535 ∧ Keeps s (s.toHost m) [aHlkRetq])) ∧
  ∀ (s : State) (m : HostMsg), prtState s ∈ [3, 4, 5] → s.heldResults.length < 4096 →
    s.emit m = { s with heldResults := s.heldResults ++ [(s.stampNs, m)] }

/-- REG_RD, REG_WR and REG_WRB (R427, R562): writes on a register array of plain RW words. -/
def Obligations.RegisterAccess : Prop :=
  (∀ (h : HostHdr) (addr : Word) (r : RegRow) (s : State), HostAdmits s h → addr.toNat % 4 = 0 → regAt addr.toNat = some r →
    regOn s r addr.toNat = true → latchOf s (.host h.ch) = none →
    ∃ u, AnswersOk (.regRd h addr) s u h kRegRd 0 ((rcView (accepted s h) r addr.toNat (regView (accepted s h) addr.toNat)).zeroExtend 48) [] ∧
      KeepsMemory s u) ∧
  (∀ (h : HostHdr) (i : Fin 128) (v : Word) (s : State), HostAdmits s h →
    AnswersOk (.regWr h (BitVec.ofNat 32 (aGfwSyncallow i)) v) s ((accepted s h).wr (aGfwSyncallow i) v) h kRegWr 0 0 []) ∧
  (∀ (h : HostHdr) (i n : Nat) (data : List Byte) (s : State), HostAdmits s h → data.length = 4 * n → i + n ≤ 128 →
    ∃ u, AnswersOk (.regWrb h (BitVec.ofNat 32 (aGfwSyncallow i)) data) s u h kRegWrb 0 0 [] ∧
      (∀ j, j < n → (u.rd (aGfwSyncallow (i + j))).toNat = fieldAt data (4 * j) 4) ∧
      Keeps (accepted s h) u ((List.range n).map fun j => aGfwSyncallow (i + j))) ∧
  ∀ (h : HostHdr) (m n : Nat) (data : List Byte) (s : State), HostAdmits s h → data.length = 4 * (m + n) → 1 ≤ m → m ≤ 48 → n ≤ 128 →
    let first := aGfwSyncallow 0 - 4 * m
    ∃ u : State, exec (.regWrb h (BitVec.ofNat 32 first) data) s =
        .next (u.complete (keyOf h) kRegWrb 0 .access (BitVec.ofNat 48 first) []) ∧
      Keeps (accepted s h) u ((List.range n).map aGfwSyncallow) ∧
      ∀ j, j < n → (u.rd (aGfwSyncallow j)).toNat = fieldAt data (4 * (m + j)) 4

/-- R7 and R552, whole. -/
def Obligations.AccessErrors : Prop :=
  let bad (a : Nat) : Prop := a % 4 ≠ 0 ∨ regAt a = none
  let readOnly (a : Nat) : Prop := ∃ i, (i < 128 ∧ a = aHubAttrep i) ∨ (i < 512 ∧ a = aHubCert i)
  let failed (s : State) (q : Requester) (a : Nat) : State := s.report
    { accessError (masterOf q) with space := 4, addr := BitVec.ofNat 48 a }
  (∀ a : Nat, (0x1C00000 ≤ a ∧ a < 0x2000000) ∨ (0x2400000 ≤ a ∧ a < 0x3000000) ∨ (0x3080000 ≤ a ∧ a < 0x4000000) ∨ 0xA000000 ≤ a →
    bad a) ∧
  (∀ (s : State) (q : Requester) (a : Nat), bad a → regRead s q a = (failed s q a, 0, false)) ∧
  (∀ (s : State) (q : Requester) (a : Nat) (v : Word) (x : WriteArg), bad a ∨ readOnly a →
    regWrite s q a v x = (failed s q a, false)) ∧
  (∀ (h : HostHdr) (addr : Word) (s : State), HostAdmits s h → bad addr.toNat →
    exec (.regRd h addr) s = .next ((failed (accepted s h) (.host h.ch) addr.toNat).complete (keyOf h) kRegRd 0 .access 0 [])) ∧
  (∀ (h : HostHdr) (addr v : Word) (s : State), HostAdmits s h → bad addr.toNat ∨ readOnly addr.toNat →
    ∃ u : State, exec (.regWr h addr v) s = .next (u.complete (keyOf h) kRegWr 0 .access 0 []) ∧ u.regs = (accepted s h).regs ∧
      u.mem = s.mem ∧ u.reports = s.reports ++ [{ accessError 9 with space := 4, addr := BitVec.ofNat 48 addr.toNat }]) ∧
  ∀ (addr v : Word) (s : State), s.boot.island = true → addr.toNat % 4 ≠ 0 →
    (∃ u : State, exec (.i3cWrite addr v) s = .next u ∧ u.regs = s.regs ∧ u.mem = s.mem ∧
      u.reports = s.reports ++ [{ accessError 10 with space := 4, addr := BitVec.ofNat 48 addr.toNat }]) ∧
    (s.pins.i3cPtr = addr → ∃ u : State, exec .i3cRead s = .next u ∧ u.regs = s.regs ∧ u.mem = s.mem ∧ u.pins.i3cPtr = addr ∧
      u.reports = s.reports ++ [{ accessError 10 with space := 4, addr := BitVec.ofNat 48 addr.toNat }])

/-- MEM_WR and MEM_RD of a local address (R427). -/
def Obligations.HostMemory : Prop :=
  (∀ (h : HostHdr) (pa : BitVec 48) (data : List Byte) (s : State), HostAdmits s h → hostWriteBad s pa.toNat data = none →
    memWritable s masterHost pa.toNat data.length = .ok →
    ∃ u, AnswersOk (.memWr h pa data) s u h kMemWr 0 0 [] ∧
      (∀ a, u.byte a = if q : localPa (ownModule s) pa.toNat ≤ a ∧ a - localPa (ownModule s) pa.toNat < data.length then
        data[a - localPa (ownModule s) pa.toNat] else s.byte a) ∧
      ∀ a, a ∉ [aHlkAccept h.ch, aFltInj 0, aFltInj 2, aFltInj 3, aFltInj 4] → u.rd a = s.rd a) ∧
  ∀ (h : HostHdr) (pa : BitVec 48) (n : Fin 16) (s : State), HostAdmits s h → pa.toNat % 128 = 0 →
    hostReach s pa.toNat (128 * (n.val + 1)) = true → (memRead (accepted s h) masterHost pa.toNat (128 * (n.val + 1))).2 = .ok →
    ∃ u, AnswersOk (.memRd h pa n) s u h kMemRd 0 0 (s.bytes (localPa (ownModule s) pa.toNat) (128 * (n.val + 1))) ∧
      KeepsMemory s u

/-! ### Context commands (R145 to R157) -/

/-- LOAD and UNLOAD (R145, R184). -/
def Obligations.LoadAndUnload : Prop :=
  (∀ (h : HostHdr) (c : CtxId) (s : State), HostAdmits s h →
    (ctxState s c = ctxEmpty → ∃ u, AnswersOk (.load h c) s u h kLoad c 0 [] ∧ ctxState u c = ctxIdle ∧
      (∀ e ∈ u.tlb, e.ctx ≠ c) ∧ (∀ c', c' ≠ c → ctxState u c' = ctxState s c') ∧ KeepsMemory s u) ∧
    (ctxState s c ≠ ctxEmpty →
      exec (.load h c) s = .next ((accepted s h).complete (keyOf h) kLoad c .state 0 []))) ∧
  ∀ (h : HostHdr) (c : CtxId) (s : State), HostAdmits s h → ctxState s c ∈ [ctxIdle, ctxReady, ctxHeld] →
    stopping s c = false → onCall s c = 0 →
    ∃ u, AnswersOk (.unload h c) s u h kUnload c 0 [] ∧ ctxState u c = ctxEmpty ∧ (∀ e ∈ u.tlb, e.ctx ≠ c) ∧
      (∀ d k, c ∉ (u.caller d k).queue) ∧ KeepsMemory s u

/-- START_STEP and RUN (R146, R147). -/
def Obligations.StartStepAndRun : Prop :=
  let entered (s u : State) (c : CtxId) : Prop :=
    (∀ d k, inDieSet s c d = true → (u.caller d k).queue =
      if c ∈ (s.caller d k).queue then (s.caller d k).queue else (s.caller d k).queue ++ [c]) ∧
    ∀ d k, inDieSet s c d = false → u.caller d k = s.caller d k
  (∀ (h : HostHdr) (c : CtxId) (downbeat : BitVec 64) (s : State), HostAdmits s h → prtState s ≠ 4 → prtState s ≠ 5 →
    ctxState s c = ctxIdle → stopping s c = false → diesServe s c = true →
    ∃ u, AnswersOk (.startStep h c downbeat []) s u h kStartStep c 0 [] ∧ ctxState u c = ctxReady ∧ entered s u c ∧
      (∀ d k, inDieSet s c d = true → (u.cc d k c).pc = 0 ∧
        (u.cc d k c).anchor = if downbeat = 0 then s.beat else downbeat) ∧ (u.ctx c).chan = h.ch ∧ KeepsMemory s u) ∧
  ∀ (h : HostHdr) (c : CtxId) (s : State), HostAdmits s h → ctxState s c = ctxReady → leaving s c = false →
    diesServe s c = true →
    ∃ u, AnswersOk (.run h c) s u h kRun c 0 [] ∧ entered s u c ∧ Keeps (accepted s h) u []

/-- RESUME, PREEMPT and PREEMPT_COMPLETE (R145, R149). -/
def Obligations.ResumeAndPreempt : Prop :=
  (∀ (h : HostHdr) (c : CtxId) (s : State), HostAdmits s h → ctxState s c = ctxHeld →
    diesServe s c = true →
    ∃ u, AnswersOk (.resume h c) s u h kResume c 0 [] ∧ ctxState u c = ctxReady ∧ (∀ d k, (u.cc d k c).held = false) ∧
      KeepsMemory s u) ∧
  (∀ (h : HostHdr) (c : CtxId) (s : State), HostAdmits s h → ctxState s c = ctxRunning →
    ∃ u, exec (.preempt h c) s = .next u ∧ (u.ctx c).stops = (s.ctx c).stops ++ [(.preempt, keyOf h)] ∧ u.hostOut = s.hostOut ∧
      (∀ d k, c ∉ (u.caller d k).queue) ∧
      (∀ d k, runs s d k c = true → if atBoundary (s.caller d k) = true then (u.caller d k).ctx = none
        else (u.caller d k).stop = true ∧ (u.caller d k).run = (s.caller d k).run) ∧ KeepsMemory s u) ∧
  ∀ (c : CtxId) (key : CplKey) (s : State), (s.ctx c).stops = [(.preempt, key)] → onCall s c = 0 →
    ∃ u : State, exec (.preemptComplete c) s = .next (u.complete key kPreempt c .ok 0 []) ∧ (u.ctx c).stops = [] ∧
      (ctxState s c = ctxRunning → ctxState u c = if someHeld s c = true then ctxHeld else ctxReady) ∧
      Keeps s u [aHubCtxstate c]

/-- SAVE and SAVE_COMMIT (R152 to R154, R156). Of two halves with one generation the model takes half A as the highest (log
entry 15). -/
def Obligations.SaveImage : Prop :=
  (∀ (h : HostHdr) (c : CtxId) (base : BitVec 48) (data : List Byte) (st off : Nat) (s : State), HostAdmits s h → data.length = 8 →
    let n := fieldAt data 0 8
    let a := localPa (ownModule s) base.toNat
    areaOk s base n = true → imageSize s c ≤ n →
    (ctxState s c ∈ [ctxIdle, ctxReady, ctxHeld] → (s.ctx c).stops = [] → onCall s c = 0 → sentFlits s c = false →
      partialsWait s c = false → s.ecc = [] → place (ownModule s) base.toNat = .stack st off → stackServes s st = true →
      ∃ (u : State) (op : SaveOp), exec (.save h c base data) s = .next u ∧ ctxState u c = ctxSaving ∧
        (u.ctx c).save = some (op, keyOf h) ∧ op.prior.val = ctxState s c ∧ u.hostOut = s.hostOut ∧
        ((∀ g, ¬ CommittedHalf s a n g) → op.half = base) ∧
        (∀ g, CommittedHalf s a n g → (∀ g', CommittedHalf s (a + n) n g' → g' ≤ g) →
          op.half = base + BitVec.ofNat 48 n ∧ op.gen = BitVec.ofNat 64 (g + 1)) ∧
        (∀ g, CommittedHalf s (a + n) n g → (∀ g', CommittedHalf s a n g' → g' < g) →
          op.half = base ∧ op.gen = BitVec.ofNat 64 (g + 1)) ∧
        ((∀ g, ¬ CommittedHalf s a n g) → (∀ g, ¬ CommittedHalf s (a + n) n g) → op.gen = 1) ∧
        ∀ x, ¬ (localPa (ownModule s) op.half.toNat + 192 ≤ x ∧ x < localPa (ownModule s) op.half.toNat + 256) →
          u.byte x = s.byte x) ∧
    (ctxState s c = ctxRunning → ∃ u, exec (.save h c base data) s = .next u ∧
      (u.ctx c).stops = (s.ctx c).stops ++ [(.save base n, keyOf h)] ∧ ctxState u c = ctxRunning ∧ u.hostOut = s.hostOut ∧
      (∀ d k, c ∉ (u.caller d k).queue) ∧ KeepsMemory s u)) ∧
  ∀ (c : CtxId) (op : SaveOp) (key : CplKey) (s : State), (s.ctx c).save = some (op, key) → sentFlits s c = false →
    (op.zeroed = true ∨ partialsWait s c = false) →
    let half := localPa (ownModule s) op.half.toNat
    (∃ u : State, exec (.saveCommit c false) s = .next (u.complete key kSave c .saveErr 0 []) ∧ ctxState u c = op.prior.val ∧
      (u.ctx c).save = none) ∧
    (ctxLinesLeft s c = false → s.ecc = [] → (∀ d, inDieSet s c d = true → sramServes s d = true) →
      memWritable s masterHub half 256 = .ok → half < 0x20000000000 →
      ∃ u : State, exec (.saveCommit c true) s = .next (u.complete key kSave c .ok op.half []) ∧ ctxState u c = op.prior.val ∧
        (u.ctx c).save = none ∧ u.rd64 (aHubCtxsave0 c) = op.half.zeroExtend 64 ∧
        (let b := u.bytes half 256;
          fieldAt b 0 4 = 0x53564B39 ∧ fieldAt b 8 8 = op.gen.toNat ∧ fieldAt b 16 8 = (s.rd64 (aHubCtxstep0 c)).toNat ∧
            fieldAt b 24 8 = (s.rd64 (aHubCtxrseed0 c)).toNat ∧ fieldAt b 32 8 = (s.rd64 (aHubCtxsseed0 c)).toNat ∧
            fieldAt b 40 8 = (s.rd64 (aHubCtxptr0 c)).toNat ∧ fieldAt b 48 2 = s.fld (aHubCtxcfg c) 11 0 ∧
            fieldAt b 50 1 = op.prior.val ∧ fieldAt b 252 4 = 0x434F4D54) ∧
        ∀ x, x < half ∨ half + imageSize s c ≤ x → u.byte x = s.byte x)

/-- RESTORE and RESTORE_COMMIT (R155, R202). -/
def Obligations.RestoreImage : Prop :=
  (∀ (h : HostHdr) (c : CtxId) (base : BitVec 48) (data : List Byte) (s : State), HostAdmits s h → data.length = 8 →
    ctxState s c = ctxEmpty →
    let n := fieldAt data 0 8
    let a := localPa (ownModule s) base.toNat
    areaOk s base n = true →
    let taken (u : State) (half other : BitVec 48) : Prop :=
      exec (.restore h c base data) s = .next u ∧ ctxState u c = ctxRestoring ∧ (u.ctx c).restore =
        some ({ half := half, other := other, size := n, dies := BitVec.ofNat 12 (fieldAt (s.bytes (localPa (ownModule s) half.toNat) 256) 48 2) }, keyOf h) ∧
      (∀ e ∈ u.tlb, e.ctx ≠ c) ∧ KeepsMemory s u
    let refused : Prop := ∃ u : State, exec (.restore h c base data) s = .next (u.complete (keyOf h) kRestore c .imageErr 0 []) ∧
      ctxState u c = ctxEmpty ∧ KeepsMemory s u
    let b := base + BitVec.ofNat 48 n
    (∀ st off, s.ecc = [] → place (ownModule s) base.toNat = .stack st off → stackServes s st = true →
      (∀ g, CommittedHalf s a n g → (∀ g', CommittedHalf s (a + n) n g' → g' ≤ g) →
        if windowsFit s c (s.bytes a 256) = true then ∃ u, taken u base b else refused) ∧
      (∀ g, CommittedHalf s (a + n) n g → (∀ g', CommittedHalf s a n g' → g' < g) →
        if windowsFit s c (s.bytes (a + n) 256) = true then ∃ u, taken u b base else refused)) ∧
    ((∀ g, ¬ CommittedHalf s a n g) → (∀ g, ¬ CommittedHalf s (a + n) n g) → refused)) ∧
  ∀ (c : CtxId) (op : RestoreOp) (key : CplKey) (s : State), (s.ctx c).restore = some (op, key) → ctxLinesLeft s c = false →
    let half := localPa (ownModule s) op.half.toNat
    let b := s.bytes half 256
    (∀ g st off, CommittedHalf s half op.size g → s.ecc = [] → place (ownModule s) half = .stack st off → half < 0x20000000000 →
      off + op.size ≤ 0x900000000 → 256 ≤ op.size → stackServes s st = true → windowsFit s c b = true →
      ∃ u : State, exec (.restoreCommit c) s = .next (u.complete key kRestore c .ok 0 []) ∧
        ctxState u c = fieldAt b 50 1 % 8 ∧ (u.ctx c).restore = none ∧ u.fld (aHubCtxcfg c) 11 0 = fieldAt b 48 2 % 4096 ∧
        (u.rd64 (aHubCtxstep0 c)).toNat = fieldAt b 16 8 ∧ (u.rd64 (aHubCtxrseed0 c)).toNat = fieldAt b 24 8 ∧
        (u.rd64 (aHubCtxsseed0 c)).toNat = fieldAt b 32 8 ∧ (u.rd64 (aHubCtxptr0 c)).toNat = fieldAt b 40 8 ∧
        ∀ d ∈ diesOf (fieldAt b 48 2 % 4096), ∀ i, i < fieldAt b (68 + 8 * d.val) 4 - sectionHead →
          u.byte (sramPa d (windowBase (ctxWindow s d c)) + i) =
            s.byte (half + fieldAt b (64 + 8 * d.val) 4 * 64 + sectionHead + i)) ∧
    ((∀ g, ¬ CommittedHalf s half op.size g) → (∀ g, ¬ CommittedHalf s (localPa (ownModule s) op.other.toNat) op.size g) →
      ∃ u : State, exec (.restoreCommit c) s = .next (u.complete key kRestore c .imageErr 0 []) ∧ ctxState u c = ctxEmpty)

/-! ### Callers and figures (R112 to R133, R146 to R148) -/

/-- CONTEXT_SWITCH, FIGURE_FETCH and STEP_END. -/
def Obligations.StepFromQueueToEnd : Prop :=
  (∀ (d : DieId) (k : CallerId) (c : CtxId) (rest : List CtxId) (s : State), (s.caller d k).queue = c :: rest →
    callerFree (s.caller d k) = true → dieRuns s d = true → copyHolds s c = false → (s.cc d k c).pend = none →
    ∃ u, exec (.contextSwitch d k) s = .next u ∧ (u.caller d k).ctx = some c ∧ (u.caller d k).queue = rest ∧
      (u.caller d k).st = (if (s.cc d k c).halted = true then CallSt.halted else if (s.cc d k c).held = true then .held else .fetch) ∧
      (ctxState s c = ctxReady → ctxState u c = ctxRunning) ∧ KeepsMemory s u) ∧
  (∀ (d : DieId) (k : CallerId) (c : CtxId) (s : State), (s.caller d k).ctx = some c → dieRuns s d = true →
    (s.caller d k).run = none → (s.caller d k).st = .fetch → (s.cc d k c).pend = none →
    fetchedAt (s.caller d k) (s.cc d k c).pc = none → (s.cc d k c).table.getLsbD 31 = true →
    s.ecc = [] → s.bit (aFltInj 1) 31 = false → s.bit (aDbgReelctl d) 31 = false →
    let a := getF (s.cc d k c).table 26 0 / 32 * 32 + 32 * (s.cc d k c).pc.toNat
    inWindow (ctxWindow s d c) a 32 = true →
    let f := s.bytes (sramPa d a) 32
    ∃ u, exec (.figureFetch d k 0) s = .next u ∧ fetchedAt (u.caller d k) (s.cc d k c).pc = some f ∧
      (if (figWaitEn f && !(s.cc d k c).relaunch) = true then
        (u.caller d k).st = .wait ∧ Msg.waitreg (figWaitIdx f) (figWaitThr f) c d k ∈ u.net
      else (u.caller d k).st = .floor ∧ u.net = s.net) ∧ KeepsMemory s u) ∧
  ∀ (c : CtxId) (s : State), stepOver s c = true → fatalLatched s = false →
    ∃ u : State, exec (.stepEnd c) s = .next (u.toHost (.stepDone (ctxChan s c) c (s.rd64 (aHubCtxstep0 c)) s.beat)) ∧
      u.rd64 (aHubCtxstep0 c) = s.rd64 (aHubCtxstep0 c) + 1 ∧ ctxState u c = ctxIdle ∧
      Keeps s u [aHubCtxstep0 c, aHubCtxstep1 c, aHubCtxstate c] ∧ u.callers = s.callers ∧ u.cctx = s.cctx

/-- The figures without data: WAIT, SIGNAL, SKIP_IF, HALT. -/
def Obligations.ControlFigures : Prop :=
  ∀ (d : DieId) (k : CallerId) (c : CtxId) (f : List Byte) (s : State),
    let acked (u : State) : Prop := (u.cc d k c).pc = (s.cc d k c).pc + 1 ∧ (u.caller d k).run = none ∧
      (figSigEn f = true → figSigRmt f = false → Msg.signal (figSigIdx f) (figSigInc f) c d k ∈ u.net) ∧
      (s.bit (aDbgReelctl d) 31 = false → KeepsMemory s u)
    (Launches s d k 7 c f → ∃ u, exec (.wait d k) s = .next u ∧ acked u) ∧
    (Launches s d k 8 c f → ∃ u, exec (.signal d k) s = .next u ∧ acked u) ∧
    (Launches s d k 9 c f →
      windowOk s d (ctxWindow s d c) (getF (s.cc d k c).table 26 0 / 32 * 32 + 32 * (skipTarget f).toNat) 32 = true →
      ∃ u r, exec (.skipIf d k) s = .next u ∧ (u.caller d k).run = some r ∧ r.work = .value ∧ r.fig = f ∧ r.ctx = c ∧
        Msg.read (skipObj f) c d k ∈ u.net ∧ (u.cc d k c).pc = (s.cc d k c).pc ∧
        (s.bit (aDbgReelctl d) 31 = false → KeepsMemory s u)) ∧
    (Launches s d k 10 c f →
      ∃ u, exec (.halt d k) s = .next u ∧ (u.cc d k c).halted = true ∧ (u.caller d k).st = .halted ∧ (u.caller d k).run = none ∧
        (ctxState s c = ctxRunning → ctxState u c = if onCall u c = 0 then ctxReady else ctxRunning) ∧
        (s.bit (aDbgReelctl d) 31 = false → KeepsMemory s u))

/-- MATMUL's launch (R74, R76). -/
def Obligations.MatmulLaunch : Prop :=
  ∀ (d : DieId) (k : CallerId) (entropy : BitVec 64) (c : CtxId) (f b : List Byte) (s : State), CleanLaunch s d k 1 c f b →
    checkMat b = none → (matDesc b).acc = 0 → (matDesc b).rnd ≠ 2 → (matDesc b).outMode = 0 →
    AllInWindow s d c ((matDesc b).reads ++ (matDesc b).writes) →
    ∃ u r, exec (.matmul d k entropy) s = .next u ∧ (u.caller d k).run = some r ∧ r.fig = f ∧ r.desc = b ∧ r.ctx = c ∧
      r.launch = s.beat ∧ (u.cc d k c).pc = (s.cc d k c).pc ∧ KeepsMemory s u ∧
      ((matDesc b).parts ≠ 1 → (matDesc b).cellMod = ownModule s → r.work = .result ∧
        Msg.post (Fin.ofNat 256 (matDesc b).cell) (cellTag f (s.rd64 (aHubCtxstep0 c)))
          (participant s d r) (BitVec.ofNat 8 (matDesc b).parts)
          (anchorValue (matAnchor s d (matDesc b))) c d k ∈ u.net) ∧
      ((matDesc b).parts = 1 → r.work = .accum ((matDesc b).expPartials * ((matDesc b).m * (matDesc b).n)) ∧
        r.anchor = some (matAnchor s d (matDesc b)) ∧
        r.accs = matAccumulate s d (matDesc b) (matAnchor s d (matDesc b)))

/-- VECMAP and SAMPLE (R78, R93). -/
def Obligations.VectorAndSample : Prop :=
  (∀ (d : DieId) (k : CallerId) (c : CtxId) (f b : List Byte) (s : State), CleanLaunch s d k 2 c f b →
    checkVec b = none → (vecDesc b).sends = false → (vecDesc b).expPartials = 0 → (vecDesc b).parts < 2 →
    AllInWindow s d c (vecReads s d (vecDesc b) ++ vecWrites s d (vecDesc b)) →
    ∃ u r, exec (.vecmap d k) s = .next u ∧ (u.caller d k).run = some r ∧ r.fig = f ∧ r.desc = b ∧ r.work = .done ∧
      (∃ w : State, w.mem = s.mem ∧ w.ecc = [] ∧ w.bit (aFltInj 0) 31 = false ∧ w.bit (aFltInj 1) 31 = false ∧
        u.mem = (vecRun w d k c (vecDesc b) (s.rd64 (aHubCtxrseed0 c)) (s.rd64 (aHubCtxstep0 c))).st.mem) ∧
      ((vecDesc b).op ≠ 0x19 → ∀ a, (∀ w ∈ (vecDesc b).writes, a < sramPa d w.1 ∨ sramPa d w.1 + w.2 ≤ a) →
        u.byte a = s.byte a)) ∧
  ∀ (d : DieId) (k : CallerId) (entropy : BitVec 64) (c : CtxId) (f b : List Byte) (s : State), CleanLaunch s d k 6 c f b →
    checkSamp b = none → (sampDesc b).entropy = false →
    AllInWindow s d c ((sampDesc b).reads ++ (sampDesc b).writes) →
    let bs := (sampRun s d (sampDesc b) (s.rd64 (aHubCtxsseed0 c)) (s.rd64 (aHubCtxstep0 c))).1
    let out := sramPa d (sampDesc b).out
    ∃ u r, exec (.sample d k entropy) s = .next u ∧ (u.caller d k).run = some r ∧ r.fig = f ∧ r.desc = b ∧ r.work = .done ∧
      ∀ a, u.byte a = if q : out ≤ a ∧ a - out < bs.length then bs[a - out] else s.byte a

/-- MOVE, STREAM, SEND and FIGURE_ACK. -/
def Obligations.TransfersAndAcknowledgement : Prop :=
  let starts (i : DieId → CallerId → Instr) (stream : Bool) : Prop := ∀ (d : DieId) (k : CallerId) (c : CtxId) (f read b : List Byte) (s : State),
    CleanLaunch s d k (if stream = true then 4 else 3) c f read →
    b = (match (s.cc d k c).relaunch, (s.cc d k c).xfer with | true, some x => x.desc | _, _ => read) →
    checkXfer b stream = none →
    ((xferDesc b).entry = 0 ∨
      entryRefused s (xferDesc b).entry (if stream = true then kindStream else kindMemory) c d 0 = false) →
    (stream = true → AllInWindow s d c ((xferDesc b).ranges true)) →
    ∃ u r, exec (i d k) s = .next u ∧ (u.caller d k).run = some r ∧ r.fig = f ∧
      r.desc = b ∧ r.ctx = c ∧ r.work = .xfer (xferStart (s.cc d k c) b) none false ∧ (u.cc d k c).pc = (s.cc d k c).pc ∧
      u.segs = s.segs ∧ KeepsMemory s u
  starts .move false ∧ starts .stream true ∧
  (∀ (d : DieId) (k : CallerId) (c : CtxId) (f b : List Byte) (s : State), CleanLaunch s d k 5 c f b →
    checkSend b = none → entryRefused s (sendDesc b).entry kindData c d (sendDesc b).ports = false →
    inWindow (ctxWindow s d c) (sendDesc b).src (sendDesc b).len = true →
    ∃ u r n l, exec (.send d k) s = .next u ∧ (u.caller d k).run = some r ∧ r.fig = f ∧ r.desc = b ∧ r.ctx = c ∧ r.work = .send n ∧
      n ≤ sendFlits (sendDesc b) ∧ u.txq (sendDesc b).entry = s.txq (sendDesc b).entry ++ l ∧ l.length = n ∧ KeepsMemory s u ∧
      ∀ (i : Nat) (x : PlanFlit), l[i]? = some x → x.first = decide (i = 0) ∧
        let m := min 240 ((sendDesc b).len - 240 * i)
        x.plen = m ∧ x.payload = padTo 240 (s.bytes (sramPa d ((sendDesc b).src + 240 * i)) m)) ∧
  (∀ (d : DieId) (k : CallerId) (r : Running) (mu vu : Nat) (s : State), (s.caller d k).run = some r → fatalLatched s = false →
    (hashed s r = false ∨ mcFull s (cmpId d k r) = false) → FigureDone s d k r →
    ∃ u, exec (.figureAck d k mu vu) s = .next u ∧ (u.cc d k r.ctx).pc = r.newPc ∧ (u.caller d k).run = none ∧
      (figSigEn r.fig = true → figSigRmt r.fig = false → Msg.signal (figSigIdx r.fig) (figSigInc r.fig) r.ctx d k ∈ u.net) ∧
      (hashed s r = false → s.bit (aDbgReelctl d) 31 = false → KeepsMemory s u)) ∧
  ∀ (d : DieId) (k : CallerId) (r : Running) (mu vu : Nat) (s : State), (s.caller d k).run = some r → fatalLatched s = false →
    hashed s r = false → r.work = .accum 0 → figOp r.fig = 1 → s.ecc = [] →
    s.bit (aFltInj 1) 31 = false → s.bit (aDbgReelctl d) 31 = false →
    let m := matDesc r.desc
    let seed := rndSeed s r.ctx m.rnd r.entropy
    let bs := (if m.acc = 1 then relaxedWriteBack m seed r.step r.fps
      else matWriteBack m (r.anchor.getD none) seed r.step r.accs).1
    ∃ u, exec (.figureAck d k mu vu) s = .next u ∧ (u.cc d k r.ctx).pc = r.newPc ∧ (u.caller d k).run = none ∧
      ∀ a, u.byte a = if q : sramPa d m.out ≤ a ∧ a - sramPa d m.out < bs.length then bs[a - sramPa d m.out] else s.byte a

/-! ### Sync objects (R131 to R143) -/

/-- Signals at the hub (R134, R136, whole; and the parts of R135, R138, R139, R142 and R143 that speak of a signal). -/
def Obligations.SignalsAtHub : Prop :=
  let sums (s : State) (obj : ObjId) (inc : BitVec 8) : Prop := syncSat s obj = true ∧ (syncVal s obj).toNat + inc.toNat ≥ 2 ^ 20
  let applied (s u : State) (obj : ObjId) (inc : BitVec 8) : Prop :=
    (syncVal u obj).toNat = (if syncSat s obj = true then min ((syncVal s obj).toNat + inc.toNat) (2 ^ 20 - 1)
      else ((syncVal s obj).toNat + inc.toNat) % 2 ^ 20) ∧
    (sums s obj inc → u.bit (aHubSynccfg obj) 13 = true ∧ ∀ b, b ≠ 13 → u.bit (aHubSynccfg obj) b = s.bit (aHubSynccfg obj) b) ∧
    (¬ sums s obj inc → u.rd (aHubSynccfg obj) = s.rd (aHubSynccfg obj)) ∧
    (∀ o, o ≠ obj → syncVal u o = syncVal s o) ∧
    (∀ w, w ∈ u.waiters ↔ w ∈ s.waiters ∧ ¬ (w.obj = obj ∧ waitMet (syncSat s obj) (syncVal u obj) w.thr = true)) ∧
    (∀ w (d : DieId) (k : CallerId), w ∈ s.waiters → w.obj = obj → waitMet (syncSat s obj) (syncVal u obj) w.thr = true →
      w.slot = callerSlot d k → Msg.release obj w.ctx d k ∈ u.net) ∧ KeepsMemory s u
  (∀ (s : State) (o : ObjId) (c : CtxId), (syncVal s o).toNat = (s.rd (aHubSyncval o)).toNat % 2 ^ 20 ∧
    (syncSat s o = (s.rd (aHubSynccfg o)).getLsbD 14) ∧
    (syncAllowed s o c = true ↔ (s.rd (aHubSynccfg o)).getLsbD 15 = true ∧ (s.rd (aHubSynccfg o)).toNat % 64 = c.val)) ∧
  (∀ x t : BitVec 20, (waitMet false x t = true ↔ (x.toNat + 2 ^ 20 - t.toNat) % 2 ^ 20 < 2 ^ 19) ∧
    (waitMet true x t = true ↔ x.toNat ≥ t.toNat)) ∧
  (∀ (obj : ObjId) (inc : BitVec 8) (c : CtxId) (d : DieId) (k : CallerId) (s : State),
    (inTurn s (.signal obj inc c d k) = false → exec (.syncSignal obj inc c d k) s = .next s) ∧
    (inTurn s (.signal obj inc c d k) = true → syncAllowed s obj c = true →
      ∃ u, exec (.syncSignal obj inc c d k) s = .next u ∧ applied s u obj inc ∧
        Keeps s u [aHubSyncval obj, aHubSynccfg obj, aFltInj 6]) ∧
    (inTurn s (.signal obj inc c d k) = true → syncAllowed s obj c = false → ∃ u, exec (.syncSignal obj inc c d k) s = .next u ∧ Msg.refusal .signal obj c d k ∈ u.net ∧
      Keeps s u [aHubSyncerr] ∧ u.bit aHubSyncerr 31 = true ∧ (s.bit aHubSyncerr 31 = true → u.rd aHubSyncerr = s.rd aHubSyncerr) ∧
      u.waiters = s.waiters)) ∧
  ∀ (x : XPort) (m : ModId) (tag : BitVec 16) (obj : ObjId) (inc : BitVec 8) (c : CtxId) (s : State),
    ∃ u, exec (.remoteSignal x m tag obj inc c) s = .next u ∧
      (syncAllowed s obj c = true → applied s u obj inc) ∧
      (u.link x).rspq = (s.link x).rspq ++ [{ kind := 0x83, m := m, tag := tag, addr := BitVec.ofNat 48 obj.val, status := if syncAllowed s obj c = true then 0 else 1 }]

/-- WAITREG, WAITCANCEL and READ (R132, R138, R139). -/
def Obligations.WaitsAtHub : Prop :=
  ∀ (obj : ObjId) (thr : BitVec 20) (c : CtxId) (d : DieId) (k : CallerId) (s : State),
    (inTurn s (.waitreg obj thr c d k) = true → syncAllowed s obj c = true → ∃ u, exec (.waitreg obj thr c d k) s = .next u ∧ KeepsMemory s u ∧
      (∀ o, syncVal u o = syncVal s o) ∧
      if waitMet (syncSat s obj) (syncVal s obj) thr = true then Msg.release obj c d k ∈ u.net ∧ ∀ w ∈ u.waiters, w.slot ≠ callerSlot d k
      else { slot := callerSlot d k, obj := obj, thr := thr, ctx := c } ∈ u.waiters) ∧
    (inTurn s (.waitcancel obj d k) = true → ∃ u, exec (.waitcancel obj d k) s = .next u ∧ (∀ w, w ∈ u.waiters ↔ w ∈ s.waiters ∧ ¬ (w.slot = callerSlot d k ∧ w.obj = obj)) ∧
      Keeps s u [] ∧ u.callers = s.callers) ∧
    (inTurn s (.read obj c d k) = true → syncAllowed s obj c = true → ∃ u, exec (.read obj c d k) s = .next u ∧ Msg.value obj c d k (syncVal s obj) ∈ u.net ∧
      Keeps s u [] ∧ u.waiters = s.waiters ∧ u.callers = s.callers)

/-- Answers of the hub at a Caller (R131, R138, R139, R143). -/
def Obligations.SyncAnswersAtCaller : Prop :=
  (∀ (obj : ObjId) (c : CtxId) (d : DieId) (k : CallerId) (s : State),
    ∃ u, exec (.syncRelease obj c d k) s = .next u ∧ Keeps s u [] ∧
      (waitsFor s obj c d k = true → (u.caller d k).rel = true ∧ (u.caller d k).st = .floor ∧ (u.cc d k c).waitReg = false) ∧
      (waitsFor s obj c d k = false → u.callers = s.callers ∧ u.cctx = s.cctx)) ∧
  (∀ (obj : ObjId) (c : CtxId) (d : DieId) (k : CallerId) (x : BitVec 20) (r : Running) (s : State),
    skipWaiting s obj c d k = some r → hashed s r = false →
    ∃ u, exec (.value obj c d k x) s = .next u ∧ (u.caller d k).run = none ∧
      (u.cc d k c).pc = if skipTaken r.fig (syncSat s obj) x = true then skipTarget r.fig else r.pc + 1) ∧
  (∀ (obj : ObjId) (c : CtxId) (d : DieId) (k : CallerId) (s : State),
    (waitsFor s obj c d k = true → ∃ u, exec (.syncRefusal .waitreg obj c d k) s = .next u ∧ (u.cc d k c).held = true ∧
      (u.cc d k c).figerr = 7 ∧ (u.caller d k).st = .held ∧ ctxEvent d k c 0x03 7 ∈ u.reports ∧
      (ctxState s c = ctxRunning → ctxState u c = ctxHeld)) ∧
    ((s.caller d k).ctx = some c → (s.caller d k).run.isSome = true →
      ∃ u, exec (.syncRefusal .signal obj c d k) s = .next u ∧ (u.cc d k c).pend = some 7 ∧ u.callers = s.callers)) ∧
  ∀ (x : XPort) (tag : BitVec 16) (d : DieId) (k : CallerId) (c : CtxId) (s : State),
    remoteOf s x tag = some (.signal d k c) →
    (∃ u, exec (.sigAck x tag 0) s = .next u ∧ u.callers = s.callers ∧ u.cctx = s.cctx ∧ Keeps s u [] ∧
      remoteOf u x tag = none) ∧
    ((s.caller d k).ctx = some c → (s.caller d k).run.isSome = true →
      ∃ u, exec (.sigAck x tag 1) s = .next u ∧ (u.cc d k c).pend = some 7 ∧ remoteOf u x tag = none)

/-! ### Anchor cells (R46 to R57) -/

/-- Posts and Releases at an anchor cell (R52, R56). -/
def Obligations.AnchorCellMessages : Prop :=
  ∀ (cell : CellId) (tag : BitVec 48) (index count : BitVec 8) (v : BitVec 32) (c : CtxId) (d : DieId) (k : CallerId) (x : XPort)
    (m : ModId) (s : State),
    let opens (i : Instr) : Prop := (s.cell cell).st = .free → index.toNat < count.toNat → count ≠ 1 →
      ∃ u, exec i s = .next u ∧ (u.cell cell).st = .collecting ∧ (u.cell cell).tag = tag ∧ (u.cell cell).count = count ∧
        (u.cell cell).value = v ∧ (u.cell cell).posts = withBit 0 index.toNat ∧ KeepsMemory s u ∧
        ∀ j, j ≠ cell.val → u.cell j = s.cell j
    let releases (i : Instr) : Prop := (s.cell cell).st = .done → (s.cell cell).tag = tag → index.toNat < (s.cell cell).count.toNat →
      ∃ u, exec i s = .next u ∧ KeepsMemory s u ∧
        if bitCount (withBit (s.cell cell).rels index.toNat) = (s.cell cell).count.toNat then (u.cell cell).st = .free
        else (u.cell cell).st = .done ∧ (u.cell cell).rels = withBit (s.cell cell).rels index.toNat
    opens (.post cell tag index count v c d k) ∧ opens (.aPost x m cell tag index count v) ∧
    ((s.cell cell).st = .collecting → (s.cell cell).tag ≠ tag ∨ (s.cell cell).count ≠ count →
      ∃ u, exec (.post cell tag index count v c d k) s = .next u ∧ u.cell cell = s.cell cell ∧ (u.cc d k c).held = true ∧
        ctxEvent d k c 0x04 0 ∈ u.reports) ∧
    releases (.anchorRelease cell tag index c d k) ∧ releases (.aRel x m cell tag index)

/-- Order independence of the anchor exchange (R52). -/
def Obligations.AnchorOrderIndependent : Prop :=
  ∀ (cell : CellId) (tag : BitVec 48) (c : CtxId) (n : Nat) (ps : List (Nat × BitVec 32 × DieId × CallerId)) (s : State),
    1 ≤ n → n ≤ 255 → (s.cell cell).st = .free → (ps.map (·.1)).Perm (List.range n) →
    let t := runAll (ps.map fun p => .post cell tag (BitVec.ofNat 8 p.1) (BitVec.ofNat 8 n) p.2.1 c p.2.2.1 p.2.2.2) s
    (t.cell cell).st = .done ∧ (∃ p ∈ ps, (t.cell cell).value = p.2.1) ∧
      (∀ p ∈ ps, p.2.1.toInt ≤ (t.cell cell).value.toInt) ∧
      ∀ p ∈ ps, Msg.result cell tag (t.cell cell).value p.2.2.1 ∈ t.net

/-- RESULT, A_RES and WIDE_PARTIAL (R53, R54, R57). -/
def Obligations.AnchorAndPartials : Prop :=
  (∀ (cell : CellId) (tag : BitVec 48) (v : BitVec 32) (x : XPort) (d : DieId) (k : CallerId) (r : Running) (s : State),
    let taken (i : Instr) (here : Bool) : Prop := (s.caller d k).run = some r → awaits (ownModule s) r cell tag here = true → figOp r.fig = 1 → (matDesc r.desc).acc = 0 →
    (matDesc r.desc).outMode = 0 → s.ecc = [] → s.bit (aFltInj 1) 31 = false →
    (∀ d' k' r', (s.caller d' k').run = some r' → awaits (ownModule s) r' cell tag here = true → d' = d ∧ k' = k) →
    ∃ u r', exec i s = .next u ∧ (u.caller d k).run = some r' ∧
      r'.anchor = some (anchorOf v) ∧ r'.accs = matAccumulate s d (matDesc r.desc) (anchorOf v) ∧
      r'.work = .accum ((matDesc r.desc).expPartials * ((matDesc r.desc).m * (matDesc r.desc).n)) ∧ KeepsMemory s u ∧
      (here = true → Msg.anchorRelease cell tag (participant s d r) r.ctx d k ∈ u.net)
    taken (.result cell tag v d) true ∧ taken (.aRes x cell tag v) false) ∧
  ∀ (d : DieId) (p : Fin 8) (entry : BitVec 12) (payload : List Byte) (k : CallerId) (r : Running) (left : Nat) (s : State),
    partialTaker s d (planEntry s (activeBank s) entry.toNat).ctx = some (k, r, left) → figOp r.fig = 1 → (matDesc r.desc).acc = 0 →
    let w := wideDecode payload
    (w.anchor = anchorField (r.anchor.getD none) → 1 ≤ w.count → w.count ≤ 7 → w.first + w.count ≤ partialSize r →
      ∃ u, exec (.widePartial d p entry payload) s = .next u ∧ KeepsMemory s u ∧
        (u.caller d k).run = some { r with accs := addFrom Acc.add w.first r.accs w.accs, work := .accum (left - w.count) }) ∧
    (w.anchor ≠ anchorField (r.anchor.getD none) →
      ∃ u, exec (.widePartial d p entry payload) s = .next u ∧ (u.cc d k r.ctx).held = true ∧
        ctxEvent d k r.ctx 0x04 0 ∈ u.reports)

/-- Exactness of the anchored accumulation (R45 to R50, R57). -/
def Obligations.ReductionOrderIndependent : Prop :=
  (∀ (a : Option Int) (ps qs : List Prod), ps.Perm qs → eaaAccumulate a ps = eaaAccumulate a qs) ∧
  (∀ (a : Option Int) (ps qs : List Prod), (eaaAccumulate a ps).add (eaaAccumulate a qs) = eaaAccumulate a (ps ++ qs)) ∧
  (∀ x y : Acc, x.add y = y.add x) ∧ ∀ x y z : Acc, (x.add y).add z = x.add (y.add z)

/-! ### Paging and transfers (R176 to R203) -/

/-- Walks and their replies (R178, R180, R182, R185). -/
def Obligations.WalksAndReplies : Prop :=
  (∀ (tlb : Fin 44) (c : CtxId) (va : BitVec 48) (s : State), s.ecc = [] →
    let root := (s.rd64 (aHubCtxptr0 c)).toNat
    let entry (table idx : Nat) : Nat := leNat (s.bytes (dirPa (table % 4096 * 0x1000 + 8 * idx)) 8)
    let e1 := entry root (va.toNat / 2 ^ 39 % 512)
    let e2 := entry e1 (va.toNat / 2 ^ 30 % 512)
    let leaf := entry e2 (va.toNat / 2 ^ 21 % 512)
    ∃ (u : State) (r : WalkResult), exec (.walkRequest tlb c va) s = .next u ∧ Msg.walkReply tlb c va r ∈ u.net ∧ KeepsMemory s u ∧
      (root.testBit 63 = false → r = .fault 1) ∧
      (root.testBit 63 = true → bits root 62 12 = 0 → e1.testBit 63 = false → r = .fault 1) ∧
      (root.testBit 63 = true → bits root 62 12 = 0 → e1.testBit 63 = true → bits e1 62 12 = 0 → e2.testBit 63 = true →
        bits e2 62 12 = 0 → leaf.testBit 63 = true → bits leaf 60 56 = 0 → bits leaf 20 0 = 0 →
        leafOk (ownModule s) (bits leaf 47 21 * 0x200000) = true →
        r = .ok (BitVec.ofNat 27 (bits leaf 47 21)) (leaf.testBit 62) (leaf.testBit 61))) ∧
  (∀ (tlb : Fin 44) (c : CtxId) (va : BitVec 48) (w : Walk) (ppn : BitVec 27) (rd wr : Bool) (s : State),
    s.walks.find? (fun w => w.tlb = tlb ∧ w.ctx = c ∧ w.vpn = vpnOf va.toNat) = some w →
    ∃ u, exec (.walkReply tlb c va (.ok ppn rd wr)) s = .next u ∧ u.walks = s.walks.erase w ∧ Keeps s u [] ∧
      (w.stale = true → u.tlb = s.tlb) ∧
      (w.stale = false → tlbLookup s tlb c (vpnOf va.toNat) = none → (s.tlb.filter fun e => e.tlb = tlb).length < tlbSize tlb →
        u.tlb = s.tlb ++ [{ tlb := tlb, ctx := c, vpn := vpnOf va.toNat, ppn := ppn, rd := rd, wr := wr }])) ∧
  ∀ s : State, (s.segs.any fun g => g.inval) = false →
    ∃ u, exec .tlbInvalidateDone s = .next u ∧ u.bit aHubTlbstat 0 = false ∧ Keeps s u [aHubTlbstat] ∧ u.tlb = s.tlb ∧ u.segs = s.segs

/-- SEGMENT_ISSUE and SEGMENT_COMPLETE (R189 to R193, R209). -/
def Obligations.SegmentIssueAndComplete : Prop :=
  (∀ (d : DieId) (k : CallerId) (r : Running) (n : Nat) (p : Part) (s : State), xferOf s d k = some (r, n, none, false) →
    let x := xferDesc r.desc
    (segments x)[n]? = some p → (s.caller d k).stop = false → dieRuns s d = true →
    (isStream r = true → p.scale = true ∨ ∀ g ∈ s.segs, ¬ (g.die = d ∧ g.caller = k ∧ g.ctx = r.ctx ∧ g.scale = true)) →
    (x.entry = 0 ∨ (r.entryGone = false ∧
      entryRefused s x.entry (if isStream r = true then kindStream else kindMemory) r.ctx d 0 = false)) →
    (isStream r = false → moveWindowOk s d r p = true) →
    let t := tlbOf d (isStream r) p.va
    let issued (u : State) (tag : Option (Fin 256)) (pa : Nat) : Prop :=
      (∃ g ∈ u.segs, g.die = d ∧ g.caller = k ∧ g.ctx = r.ctx ∧ g.idx = n ∧ g.va = p.va ∧ g.sram = p.sram ∧ g.len = p.len ∧
        g.pa = pa ∧ g.tag = tag ∧ g.lines = segLines x.dir p.len) ∧ u.segs.length = s.segs.length + 1 ∧
      (∃ r', (u.caller d k).run = some r' ∧ r'.fig = r.fig ∧ r'.desc = r.desc ∧ r'.work = .xfer (n + 1) none false) ∧
      (x.entry = 0 → segLines x.dir p.len ≠ 0 →
        ∃ q ∈ u.mesh.queue, q.use = .seg d k r.ctx n ∧ q.left = some (segLines x.dir p.len) ∧ q.req.cls5 = false) ∧
      KeepsMemory s u
    (∀ tag, isStream r = false → x.dir = 2 → freeTag s d k = some tag →
      ∃ u, exec (.segmentIssue d k) s = .next u ∧ issued u (some tag) 0) ∧
    (∀ tag e st off, x.dir < 2 → tlbLookup s t r.ctx (vpnOf p.va) = some e → (x.dir = 0 → e.rd = true) → (x.dir = 1 → e.wr = true) →
      place (ownModule s) (e.ppn.toNat * 0x200000 + p.va % 0x200000) = .stack st off → stackServes s st = true →
      (if isStream r = true then tag = none else freeTag s d k = tag ∧ tag.isSome = true) →
      ∃ u, exec (.segmentIssue d k) s = .next u ∧ issued u tag (localPa (ownModule s) (e.ppn.toNat * 0x200000 + p.va % 0x200000))) ∧
    (x.dir ≠ 2 → tlbLookup s t r.ctx (vpnOf p.va) = none → walking s t r.ctx p.va = false →
      ∃ u, exec (.segmentIssue d k) s = .next u ∧ Msg.walkRequest t r.ctx (BitVec.ofNat 48 p.va) ∈ u.net ∧ u.segs = s.segs ∧
        u.callers = s.callers ∧ Keeps s u [])) ∧
  ∀ (d : DieId) (k : CallerId) (c : CtxId) (i st off : Nat) (g : Seg) (s : State), segOf s d k c i = some g → g.lines = 0 →
    (g.tag.isSome = true → g.mover.isSome = true) →
    (∀ r n f b, xferOf s d k = some (r, n, f, b) → doubleLines (segments (xferDesc r.desc)) g.idx g.sram g.len = []) →
    (g.dir = 2 ∨ (place (ownModule s) g.pa = .stack st off ∧ stackServes s st = true ∧ off + g.len ≤ 0x900000000)) →
    Memory.wf s = true → s.ecc = [] → s.now.main = [] → s.bit (aFltInj 1) 31 = false → ReelsOff s →
    (sramPa d g.va) % 0x8000000 + g.len ≤ 0x8000000 → (sramPa d g.sram) % 0x8000000 + g.len ≤ 0x8000000 →
    let src := if g.dir = 0 then g.pa else if g.dir = 1 then sramPa d g.sram else sramPa d g.va
    let dst := if g.dir = 1 then g.pa else sramPa d g.sram
    ∃ u, exec (.segmentComplete d k c i none) s = .next u ∧ u.segs.length + 1 = s.segs.length ∧
      (∀ j, j < g.len → u.byte (dst + j) = s.byte (src + j)) ∧
      ∀ a, a < dst ∨ dst + g.len ≤ a → u.byte a = s.byte a

/-- RD_REQ, WR_REQ, RD_DATA and WR_ACK (R194, R323). -/
def Obligations.RemoteMemory : Prop :=
  (∀ (x : XPort) (m : ModId) (tag : BitVec 16) (pa : BitVec 48) (len st off : Nat) (s : State),
    place (ownModule s) pa.toNat = .stack st off →
    (windowAdmits s m (localPa (ownModule s) pa.toNat) len false = true →
      (memRead s masterRemote (localPa (ownModule s) pa.toNat) len).2 = .ok →
      ∃ u, exec (.rdReq x m tag pa len) s = .next u ∧ KeepsMemory s u ∧ (u.link x).rspq = (s.link x).rspq ++
        [{ kind := 0x81, m := m, tag := tag, addr := pa, len := len, status := 0, data := s.bytes (localPa (ownModule s) pa.toNat) len }]) ∧
    (windowAdmits s m (localPa (ownModule s) pa.toNat) len false = false →
      ∃ u, exec (.rdReq x m tag pa len) s = .next u ∧ Keeps s u [] ∧ (u.link x).rspq = (s.link x).rspq ++
        [{ kind := 0x81, m := m, tag := tag, addr := pa, len := 0, status := 1, data := [] }])) ∧
  (∀ (x : XPort) (m : ModId) (tag : BitVec 16) (pa : BitVec 48) (data : List Byte) (st off : Nat) (s : State),
    place (ownModule s) pa.toNat = .stack st off →
    let a₀ := localPa (ownModule s) pa.toNat
    (windowAdmits s m a₀ data.length true = true → memWritable s masterRemote a₀ data.length = .ok →
      ∃ u, exec (.wrReq x m tag pa data) s = .next u ∧
        (∀ a, u.byte a = if q : a₀ ≤ a ∧ a - a₀ < data.length then data[a - a₀] else s.byte a) ∧
        (u.link x).rspq = (s.link x).rspq ++ [{ kind := 0x82, m := m, tag := tag, addr := pa, status := 0 }]) ∧
    (windowAdmits s m a₀ data.length true = false → copyWrite s x m pa.toNat = false →
      ∃ u, exec (.wrReq x m tag pa data) s = .next u ∧ Keeps s u [] ∧
        (u.link x).rspq = (s.link x).rspq ++ [{ kind := 0x82, m := m, tag := tag, addr := pa, status := 1 }])) ∧
  ∀ (x : XPort) (tag : BitVec 16) (key : CplKey) (kind : Byte) (data : List Byte) (s : State),
    remoteOf s x tag = some (.host key kind) →
    (∃ u : State, exec (.rdData x tag 0 data) s = .next (u.complete key kind 0 .ok 0 data) ∧ remoteOf u x tag = none ∧ Keeps s u []) ∧
    ∃ u : State, exec (.wrAck x tag 0) s = .next (u.complete key kind 0 .ok 0 []) ∧ remoteOf u x tag = none ∧ Keeps s u []

/-! ### Stacks and SRAM (R89, R161 to R172) -/

/-- Service of the stacks and of a die's SRAM. -/
def Obligations.StackService : Prop :=
  (∀ (q : Fin 16) (st : StackId) (offset : BitVec 36) (n : Nat) (t : Nat) (s : State), t < 1024 →
    (∀ r ∈ tagsOf s (pbOf st), r.tag.val ≠ t) → (∀ t', t' < t → ∃ r ∈ tagsOf s (pbOf st), r.tag.val = t') →
    ∃ u, exec (.stackRequest q st offset n) s = .next u ∧ KeepsMemory s u ∧ u.readReqs = s.readReqs ++
      [{ requester := q, st := st, offset := offset, bytes := min n 2048, tag := Fin.ofNat 1024 t, issued := s.stampNs }]) ∧
  (∀ (st : StackId) (s : State), stackServes s st.val = true →
    exec (.writeCrcFail st .retried none) s = .next (s.report (corrected (12 + pbOf st) 0x11 st.val)) ∧
    ∃ u, exec (.writeCrcFail st .failed none) s = .next u ∧ memState u st.val = memFailed ∧ mUp u st.val = false ∧
      contained (12 + pbOf st) 0x12 5 st.val 1 ∈ u.reports ∧ Keeps s u [aHubMeminv, aPbMemstat (st.val / 8) (st.val % 8)]) ∧
  (∀ (st : StackId) (line : Nat) (s : State), s.bit (aPbMemctl (pbOf st) (st.val % 8)) 1 = true → stackServes s st.val = true →
    128 * line < 0x900000000 → ∃ u, exec (.patrolScrub st line) s = .next u ∧ Keeps s u [aPbMemerr (st.val / 8) (st.val % 8)] ∧
      ∀ e ∈ u.ecc, e.2 = 1 → ¬ (stackPa st.val (128 * line) / 8 ≤ e.1 ∧ e.1 < stackPa st.val (128 * line) / 8 + 16)) ∧
  (∀ (st : StackId) (s : State), memState s st.val ≠ memOff → memState s st.val ≠ memFailed →
    ∃ u, exec (.stackCatastrophicTemp st) s = .next u ∧ memState u st.val = memFailed ∧ mUp u st.val = false ∧
      contained (12 + pbOf st) 0x12 5 st.val 2 ∈ u.reports ∧ Keeps s u [aHubMeminv, aPbMemstat (st.val / 8) (st.val % 8)]) ∧
  (∀ (st : StackId) (s : State), memState s st.val = memZeroing →
    ∃ u, exec (.zeroingDone st) s = .next u ∧ memState u st.val = memInService ∧ mUp u st.val = true ∧
      ∀ a, u.byte a = if stackPa st.val 0 ≤ a ∧ a < stackPa st.val 0 + 0x900000000 then 0 else s.byte a) ∧
  ∀ (d : DieId) (s : State), tdState s d = tdInit → s.dieOp = none →
    ∃ u, exec (.sramInitDone d) s = .next u ∧ tdState u d = tdServe ∧
      ∀ a, u.byte a = if sramPa d 0 ≤ a ∧ a < sramPa d 0 + 0x8000000 then 0 else s.byte a

/-! ### The mesh and the plan (R204 to R230, R347 to R349) -/

/-- Receiving and landing (R99, R222, R229, R348). -/
def Obligations.BurstsAndLandings : Prop :=
  (∀ (src : Fin 128) (d : DieId) (p : Fin 8) (lanes : List (Fin 18 × List Nat)) (x : RxFlit) (xs : List RxFlit) (f : Flit) (s : State),
    (takeBurst s src d p lanes).2 = x :: xs → (∀ y ∈ xs, y.lost = true ∨ ∀ g, parseFlit y.bytes = some g → g.typ ≠ tPlan) →
    x.lost = false → parseFlit x.bytes = some f → f.typ = tPlan →
    let split := splitOf (planEntry s (activeBank s) f.entry.toNat) f.entry.toNat
    let r := rxPairOf s src split d p
    let pf : PlanFlit := { entry := f.entry, first := f.first, payload := f.payload, plen := f.plen, origin := none }
    f.seq = r.next → r.held = [] → hasPlace s d p pf = true →
    ∃ u, exec (.burstReceive src d p true lanes) s = .next u ∧
      u.landingOf (8 * d.val + p.val) =
        s.landingOf (8 * d.val + p.val) ++ [{ flit := pf, seq := f.seq, waiting := isPartial s f.entry }] ∧
      (rxPairOf u src split d p).next = f.seq + 1 ∧ Msg.iack src split d f.seq 0 ∈ u.net ∧ Keeps s u [] ∧ KeepsMemory s u ∧
      u.callers = s.callers ∧ u.ctxs = s.ctxs) ∧
  (∀ (src : Fin 128) (d : DieId) (p : Fin 8) (lanes : List (Fin 18 × List Nat)) (s : State),
    ∃ u, exec (.burstReceive src d p false lanes) s = .next u ∧ u.mesh.landing = s.mesh.landing ∧ Keeps s u [aHubLedstat1] ∧
      u.fld aHubLedstat1 15 0 = min (s.fld aHubLedstat1 15 0 + 1) 65535 ∧ u.fld aHubLedstat1 31 16 = s.fld aHubLedstat1 31 16 ∧
      u.callers = s.callers ∧
      ((rxPairOf s src 0 d p).lockFails = 2 → (8 * d.val + p.val, src.val) ∈ u.opt.relearn ∧
        relearnEvent (8 * d.val + p.val) ∈ u.reports)) ∧
  (∀ (d : DieId) (p : Fin 8) (s : State), sramServes s d = false → exec (.landingWrite d p) s = .next s) ∧
  ∀ (d : DieId) (p : Fin 8) (f : LandFlit) (a : Nat) (s : State),
    sramServes s d = true → s.now.main = [] → (s.landingOf (8 * d.val + p.val)).find? (fun f => !f.waiting) = some f →
    let e := planEntry s (activeBank s) f.flit.entry.toNat
    let key := cursorKey d f.flit.entry.toNat
    (if f.flit.first = true then some e.land else SMap.get (fun _ => none) s.mesh.cursors key) = some a →
    ∃ u, exec (.landingWrite d p) s = .next u ∧
      u.landingOf (8 * d.val + p.val) = (s.landingOf (8 * d.val + p.val)).erase f ∧
      (a + 240 ≤ e.land + e.landLen → SMap.get (fun _ => none) u.mesh.cursors key = some (a + 240) ∧ u.callers = s.callers ∧
        ∀ x, u.byte x = if q : sramPa d a ≤ x ∧ x - sramPa d a < f.flit.payload.length then f.flit.payload[x - sramPa d a]
          else s.byte x) ∧
      (e.land + e.landLen < a + 240 → u.bit (aTdUnitstat d) 1 = true ∧
        (∃ k, ctxEvent d k (Fin.ofNat 64 e.ctx) 0x03 8 ∈ u.reports) ∧ (ReelsOff s → KeepsMemory s u))

/-- IACK and IACK_TIMEOUT (R348, R349). -/
def Obligations.AcknowledgedAndReplayed : Prop :=
  ∀ (src : Fin 128) (split : BitVec 12) (die : DieId) (ack : BitVec 16) (bitmap : BitVec 32) (t : TxPair) (s : State),
    let dst : Fin 32 := Fin.ofNat 32 die.val
    s.mesh.txPairs.find? (fun t => sameTx t src split dst) = some t →
    let high := (t.bursts.find? fun b => b.dst = dst).bind (·.high)
    let lost (f : Stored) : Prop := ∃ h, high = some h ∧ (f.seq = h ∨ seqBefore f.seq h = true)
    let same := ∀ f ∈ t.store, f.gone = false
    (∃ u, exec (.iack src split die ack bitmap) s = .next u ∧ (same → Keeps s u [] ∧ u.callers = s.callers) ∧
      (∀ g ∈ (txPairOf u src split dst).store, g.waitFor ≠ [] ∧ ∃ f ∈ t.store, g.seq = f.seq ∧ g.flit = f.flit ∧
        g.waitFor = if iackCovers ack bitmap f.seq = true then f.waitFor.erase dst else f.waitFor) ∧
      ∀ f ∈ t.store, iackCovers ack bitmap f.seq = false → f.waitFor ≠ [] → ¬ (f.gone = true ∧ (f.due = true ∨ lost f)) →
        ∃ g ∈ (txPairOf u src split dst).store, g.seq = f.seq ∧ g.flit = f.flit ∧ g.waitFor = f.waitFor ∧
          (g.due = true ↔ f.due = true ∨ lost f)) ∧
    ∃ u, exec (.iackTimeout src split die) s = .next u ∧ (same → Keeps s u [] ∧ u.callers = s.callers ∧ u.net = s.net) ∧
      (txPairOf u src split dst).store =
        (t.store.map fun f => { f with due := f.due || decide (f.age ≥ 8) }).filter fun f => !(f.gone && f.due)

/-- SLOT_START and LEDGER_REQUEST (R204, R214, R221). -/
def Obligations.SlotAndLedger : Prop :=
  (∀ s : State, s.beat.toNat % 32 ≠ 0 → exec .slotStart s = .next s) ∧
  (∀ s : State, s.beat.toNat % 32 = 0 →
    let slot := s.beat.toNat / 32
    ∃ u, exec .slotStart s = .next u ∧ (ReelsOff s → KeepsMemory s u) ∧ u.waiters = s.waiters ∧ u.tlb = s.tlb ∧
      (∀ g ∈ u.segs, ∃ x ∈ s.segs, g = { x with lines := g.lines } ∧ g.lines ≤ x.lines) ∧
      (switchDue s = false → (s.ecc = [] → u.mesh.settings = slotSettings s slot) ∧
      (∀ m ∈ u.flight, m ∈ s.flight ∨ ∃ d ∈ (planEntry s (activeBank s) (slotOwner s slot m.src.val)).dsts,
        slotOwner s slot m.src.val ≠ 0 ∧ m.dst = Fin.ofNat 32 d) ∧
      ∀ g ∈ u.mesh.grants, (g ∈ s.mesh.grants ∧ slot ≤ g.slot.toNat) ∨
        (g.slot.toNat = slot + 1 ∧ ∃ x ∈ s.mesh.queue, x.req.requester = g.req.requester ∧ x.req.cls5 = g.req.cls5 ∧ x.use = g.use ∧
          x.slot.toNat + 2 ≤ slot + 1 ∧ (x.use = .other → x.left = none → x.req = g.req)))) ∧
  ∀ (r : LedReq) (s : State), (ledgerTakes s r = false → exec (.ledgerRequest r) s = .next s) ∧ (ledgerTakes s r = true →
    ∃ u, exec (.ledgerRequest r) s = .next u ∧ Keeps s u [aFltInj 4] ∧ u.callers = s.callers ∧ u.mesh =
      { s.mesh with queue := s.mesh.queue ++ [{ req := r, slot := BitVec.ofNat 64 (s.beat.toNat / 32) }] })

/-- Checks, switches and failed elements (R219, R220, R228). -/
def Obligations.PlanAndElements : Prop :=
  (∀ s : State, s.mesh.checking = true →
    ∃ u, exec .planCheckDone s = .next u ∧ Keeps s u [aHubPlanstat] ∧ u.mesh.checking = false ∧ u.callers = s.callers ∧
      u.bit aHubPlanstat 31 = decide (s.mesh.rerouting ≠ []) ∧ activeBank u = activeBank s ∧
      (checkPlan s (standbyBank s) = none → planReady u = true ∧ u.fld aHubPlanstat 27 0 = 0) ∧
      (∀ f, checkPlan s (standbyBank s) = some f → planReady u = false ∧
        u.fld aHubPlanstat 27 0 = (f.code * 2 ^ 24 + f.entry * 2 ^ 12 + f.row) % 2 ^ 28) ∧
      (planField s (standbyBank s) 0 4 ≠ 0x504C414E → u.fld aHubPlanstat 27 24 = 1 ∧ u.fld aHubPlanstat 23 0 = 0)) ∧
  (∀ s : State, let due := planPending s = true ∧ s.beat.toNat % 32 = 0 ∧ s.beat.toNat / 32 % 256 = 0 ∧
      s.mesh.switchSlot.toNat + 3 ≤ s.beat.toNat / 32
    (¬ due → exec .planSwitch s = .next s) ∧
    (due → ∃ u, exec .planSwitch s = .next u ∧ activeBank u = standbyBank s ∧ planPending u = false ∧ planReady u = false ∧
      (∀ e, u.txq e = if entrySame s e = true then s.txq e else []) ∧ u.flight = s.flight ∧ u.waiters = s.waiters ∧
      u.fld aHubSpare 7 0 = loopBits u.mesh.loops % 256 ∧ (ReelsOff s → KeepsMemory s u))) ∧
  (∀ (e : Fin 832) (s : State),
    (s.bit (aHubMeshfail (e.val / 32)) (e.val % 32) = true → exec (.meshElementFail e) s = .next s) ∧
    (s.bit (aHubMeshfail (e.val / 32)) (e.val % 32) = false → ∃ u, exec (.meshElementFail e) s = .next u ∧
      u.bit (aHubMeshfail (e.val / 32)) (e.val % 32) = true ∧ planBusy u = true ∧ u.mesh.rerouting = s.mesh.rerouting ++ [e] ∧
      Keeps s u [aHubMeshfail (e.val / 32), aHubPlanstat] ∧ u.callers = s.callers)) ∧
  ∀ s : State, s.mesh.rerouting ≠ [] → s.beat.toNat % 32 = 0 →
    s.beat.toNat / 32 % 256 = 0 →
    ∃ u, exec .meshRerouteDone s = .next u ∧ u.mesh.rerouting = [] ∧ planBusy u = s.mesh.checking ∧
      Keeps s u [aHubPlanstat, aHubSpare] ∧ u.callers = s.callers ∧
      u.reports = s.reports ++ s.mesh.rerouting.map (fun e =>
        if u.mesh.lost = [] then corrected 25 0x28 e.val else contained 25 0x29 6 e.val e.val) ∧
      ((∀ r, r < planLen s (activeBank s) → rowConns s (activeBank s) r = [] ∨
        (routes (meshFails s) (rowConns s (activeBank s) r)).isSome = true) → u.mesh.lost = [])

/-! ### The guest (R231 to R236) -/

/-- GUEST_MEMORY_REQUEST, GUEST_SYNC_MESSAGE, ATTESTATION_REPORT and ATTESTATION_TIMEOUT (R232 to R234). -/
def Obligations.Guest : Prop :=
  (∀ (wr : Bool) (pa : BitVec 48) (len : Nat) (data : List Byte) (s : State), guestRuns s = true → guestFull s = false →
    let n := if wr = true then data.length else len
    let admitted := gfwState s = gfwOpened ∧
      ∃ i ∈ guestWindows s pa.toNat n, s.bit (aGfwWin0 i) (if wr = true then 30 else 29) = true
    (¬ admitted → ∃ u, exec (.guestMemoryRequest wr pa len data) s = .next u ∧ Msg.guestDenied ∈ u.net ∧ Keeps s u [aGfwErr] ∧
      u.bit aGfwErr 31 = true ∧ (s.bit aGfwErr 31 = true → u.rd aGfwErr = s.rd aGfwErr) ∧ u.waiters = s.waiters) ∧
    (admitted → wr = false → (memRead s masterGuest pa.toNat n).2 = .ok →
      ∃ u, exec (.guestMemoryRequest wr pa len data) s = .next u ∧ KeepsMemory s u ∧
        Msg.guestData (s.bytes (localPa (ownModule s) pa.toNat) n) ∈ u.net) ∧
    (admitted → wr = true → memWritable s masterGuest pa.toNat n = .ok →
      let a₀ := localPa (ownModule s) pa.toNat
      ∃ u, exec (.guestMemoryRequest wr pa len data) s = .next u ∧ Msg.guestWriteAck ∈ u.net ∧
        ∀ a, u.byte a = if q : a₀ ≤ a ∧ a - a₀ < data.length then data[a - a₀] else s.byte a)) ∧
  (∀ (kind : GuestSync) (obj : ObjId) (slot : Fin 16) (s : State), guestRuns s = true →
    let admitted := gfwState s = gfwOpened ∧ s.bit (aGfwSyncallow (obj.val / 32)) (obj.val % 32) = true
    (¬ admitted ∨ (kind ≠ .waitcancel ∧ syncEn s obj = false) → ∃ u, exec (.guestSyncMessage kind obj slot) s = .next u ∧
      Keeps s u [aGfwErr, aHubSyncerr] ∧ u.bit aGfwErr 31 = true ∧ u.waiters = s.waiters ∧ u.net = s.net) ∧
    (∀ (inc : BitVec 8) (c : CtxId) (d : DieId) (k : CallerId), admitted → kind = .signal inc → syncAllowed s obj c = true →
      Msg.signal obj inc c d k ∉ s.net → inTurn s (.signal obj inc c d k) = true → exec (.guestSyncMessage kind obj slot) s = exec (.syncSignal obj inc c d k) s) ∧
    (admitted → kind = .waitcancel → ∃ u, exec (.guestSyncMessage kind obj slot) s = .next u ∧ Keeps s u [] ∧
      ∀ w, w ∈ u.waiters ↔ w ∈ s.waiters ∧ ¬ (w.slot = guestSlot slot ∧ w.obj = obj)) ∧
    (admitted → kind = .read → syncEn s obj = true → ∃ u, exec (.guestSyncMessage kind obj slot) s = .next u ∧ Keeps s u [] ∧
      Msg.guestValue obj (syncVal s obj) ∈ u.net ∧ u.waiters = s.waiters)) ∧
  ∀ (formed : Bool) (meas : BitVec 384) (key : List Byte) (sig : BitVec 768) (s : State),
    let signed := Config.ecdsaVerify key (beBytes384 s.guestNonce ++ beBytes384 meas) sig = true
    let known := ∀ h, s.image.guestKey = some h → Config.sha384 key = h
    let failed (u : State) (afail : Nat) : Prop := gfwState u = gfwFailed ∧ u.fld aGfwState 11 8 = afail ∧
      u.reports = s.reports ++ [corrected 29 0x48 afail] ∧ Keeps s u [aGfwState]
    let attested (u : State) : Prop := gfwState u = gfwAttested ∧ Keeps s u (aGfwState :: (List.range 12).map aGfwMeas) ∧
      ∀ i, i < 12 → u.rd (aGfwMeas i) = BitVec.ofNat 32 (fieldAt (beBytes384 meas) (4 * i) 4)
    (gfwState s ≠ gfwAttesting → exec (.attestationReport formed meas key sig) s = .next s ∧ exec .attestationTimeout s = .next s) ∧
    (gfwState s = gfwAttesting →
      (∃ u, exec .attestationTimeout s = .next u ∧ failed u 3) ∧
      ∃ u, exec (.attestationReport formed meas key sig) s = .next u ∧
        ((formed = false ∧ failed u 4) ∨ (formed = true ∧ ¬ signed ∧ failed u 1) ∨ (formed = true ∧ signed ∧ ¬ known ∧ failed u 2) ∨
          (formed = true ∧ signed ∧ known ∧ attested u)))

/-! ### Rings, feed-forward and calibration (R246 to R286) -/

/-- Sets, figures and locks (R247, R248, R254, R256, R261, R262). -/
def Obligations.RingsAndSets : Prop :=
  ∀ (p : PortId) (tx : Bool) (l : LaneId) (s : State),
    let n := ringNo p tx l
    (∀ enter, belongs s p tx l ≠ enter → exec (.usableSetChange p tx l enter) s = .next s) ∧
    (∀ enter, isXPort p = false → 4 ≤ s.beat.toNat % 32 → exec (.usableSetChange p tx l enter) s = .next s) ∧
    (∀ enter, isXPort p = false → s.beat.toNat % 32 < 4 → belongs s p tx l = enter → willUse s p tx l ≠ enter →
      (enter = true → (s.port p).rejoin.getLsbD l = false ∨ s.beat.toNat / 32 % 256 = 0) →
      ∃ u, exec (.usableSetChange p tx l enter) s = .next u ∧ Keeps s u [useAddr p tx, aRngState p] ∧
        (∀ b, b < 32 → u.bit (useAddr p tx) b = if b = l.val then enter else s.bit (useAddr p tx) b) ∧
        u.fld (aRngState p) 20 16 = dataLanes u p ∧ u.links = s.links ∧
        (rngState s p = rngUp ∨ rngState s p = rngDown → rngState u p = if dataLanes u p < 8 then rngDown else rngUp)) ∧
    (isXPort p = false → (s.port p).rejoin.getLsbD l = true → s.beat.toNat / 32 % 256 ≠ 0 →
      exec (.usableSetChange p tx l true) s = .next s) ∧
    (∀ eye corr syms, 2 ^ 20 ≤ (laneCounts s p l corr syms).2 → ∃ u, exec (.mfUpdate p l eye corr syms) s = .next u ∧
      Keeps s u [aRngLane p l] ∧
      u.fld (aRngLane p l) 7 0 = min (eyeFigure (portMode s p) eye) (countFigure (laneCounts s p l corr syms).1) ∧
      u.fld (aRngLane p l) 31 8 = s.fld (aRngLane p l) 31 8) ∧
    (∀ (code : BitVec 12) (settled : Bool),
      let found := s.bit (lockAddr p tx) l = true ∨ searchFinds (s.ring n).lock code.toNat = true ∨
        (rngState s p = rngSearch ∧ 32 ≤ code.toNat ∧ code.toNat ≤ 4063)
      (¬ (mayLock s p tx = true ∧ found) → exec (.lockUpdate p tx l code settled) s = .next s) ∧
      (mayLock s p tx = true → found → ∃ u, exec (.lockUpdate p tx l code settled) s = .next u ∧ (u.ring n).lock = code.toNat ∧
        (rngState s p ≠ rngSearch → Keeps s u [lockAddr p tx, aRngHeat p l, aRngFfcfg p]) ∧ u.rd (useAddr p tx) = s.rd (useAddr p tx) ∧
        u.bit (lockAddr p tx) l = (s.bit (lockAddr p tx) l || settled) ∧
        (settled = true → s.bit (lockAddr p tx) l = false → rngState s p ≠ rngSearch → laneRole s p tx l = roleUnlocked →
          (s.port p).turn = none → ∃ a ∈ (u.port p).accept, a.lane = l ∧ (if tx = true then a.tx else a.rx) = true))) ∧
    (s.bit (lockAddr p tx) l = false → exec (.lockLoss p tx l) s = .next s) ∧
    (s.bit (lockAddr p tx) l = true → (s.port p).turn = none →
      let left (d : Bool) : Nat := laneCount (s.rd (useAddr p d)) - (if d = tx ∧ s.bit (useAddr p d) l = true then 1 else 0)
      ∃ u, exec (.lockLoss p tx l) s = .next u ∧ u.bit (lockAddr p tx) l = false ∧ Keeps s u [lockAddr p tx, aRngLane p l] ∧
        (laneRole s p tx l = roleUsable → laneRole u p tx l = roleUnlocked) ∧
        u.reports = s.reports ++ [if 16 ≤ left true ∧ 16 ≤ left false then laneEvent p l 0 else capacityEvent p l]) ∧
    ∀ found : BitVec 12,
      let hops := ((s.ring n).lock < 32 ∨ 4063 < (s.ring n).lock) ∧ searchFinds (hopCode (s.ring n).lock) found.toNat = true
      (¬ hops → exec (.ringHop p tx l found) s = .next s) ∧
      (hops → ∃ u, exec (.ringHop p tx l found) s = .next u ∧ u.ring n = { s.ring n with lock := found.toNat } ∧
        heatCode u p tx l = heaterOf (u.ring n) ∧ u.reports = s.reports ++ [laneEvent p l 1] ∧
        (laneRole s p tx l ≠ roleUsable → Keeps s u [aRngHeat p l]) ∧
        (laneRole s p tx l = roleUsable → (s.port p).turn = none → s.opt.atGuard = [] → laneRole u p tx l = roleUnlocked ∧
          willUse u p tx l = false ∧ ∃ a ∈ (u.port p).accept, a.lane = l ∧ (if tx = true then a.tx else a.rx) = true))

/-- Feed-forward (R263, R264). -/
def Obligations.FeedForward : Prop :=
  (∀ (d : DieId) (cls : Fin 8) (s : State), ∃ u, exec (.classChange d cls) s = .next u ∧ Keeps s u [] ∧
    (∀ n, n / 288 ≠ d.val → u.ring n = s.ring n) ∧
    ∀ (i : Fin 8) (tx : Bool) (l : LaneId),
      let p := 8 * d.val + i.val
      let r := s.ring (ringNo p tx l)
      let v := u.ring (ringNo p tx l)
      v.cls = cls ∧ v.prev = r.cls ∧ v.held = 0 ∧ v.ff = r.ff ∧ v.lock = r.lock ∧ v.coeff = r.coeff ∧ v.known = r.known ∧
        v.lost = !s.bit (lockAddr p tx) l ∧
        v.tgt = if s.bit (aRngCtl p) 1 = true ∧ s.bit (aRngFfcfg p) 31 = false ∧ knows r cls = true ∧ knows r r.cls = true
          then 256 * coeffOf r cls else r.tgt) ∧
  (∀ (p : PortId) (s : State), (96 ≤ p.val → exec (.ffTick p) s = .next s) ∧
    (p.val < 96 → ∃ u, exec (.ffTick p) s = .next u ∧ Keeps s u ((List.range 18).map (aRngHeat p)) ∧
      ∀ (tx : Bool) (l : LaneId),
        let r := s.ring (ringNo p tx l)
        let v := u.ring (ringNo p tx l)
        v.ff = r.ff + (r.tgt - r.ff).tdiv ((s.port p).tau : Int) ∧ v.held = r.held + 1 ∧ v.lock = r.lock ∧ v.tgt = r.tgt ∧
          heatCode u p tx l = (min (max ((r.lock : Int) + roundDiv v.ff 256) 0) 4095).toNat)) ∧
  (∀ (p : PortId) (tx : Bool) (l : LaneId) (s : State),
    let n := ringNo p tx l
    let r := s.ring n
    (r.obs = none → exec (.ffLearn p tx l) s = .next s) ∧
    ∀ o : Int, r.obs = some o → r.coeff.length = 8 → r.known.length = 8 →
      ∃ u, exec (.ffLearn p tx l) s = .next u ∧ Keeps s u [] ∧ (u.ring n).obs = none ∧ (∀ m, m ≠ n → u.ring m = s.ring m) ∧
        (∀ c : Fin 8, c ≠ r.cls → c ≠ r.prev → coeffOf (u.ring n) c = coeffOf r c ∧ knows (u.ring n) c = knows r c) ∧
        (knows r r.cls = true → knows r r.prev = true → r.cls ≠ 0 → coeffOf (u.ring n) r.cls =
          min (max (coeffOf r r.cls + (o - (coeffOf r r.cls - coeffOf r r.prev)).tdiv 2) (-1024)) 256) ∧
        (knows r r.cls = true → knows r r.prev = true → r.cls = 0 → coeffOf (u.ring n) r.prev =
          min (max (coeffOf r r.prev - (o - (coeffOf r r.cls - coeffOf r r.prev)).tdiv 2) (-1024)) 256) ∧
        (knows r r.cls = false → knows r r.prev = true → knows (u.ring n) r.cls = true ∧
          coeffOf (u.ring n) r.cls = min (max (coeffOf r r.prev + o) (-1024)) 256) ∧
        (knows r r.cls = true → knows r r.prev = false → knows (u.ring n) r.prev = true ∧
          coeffOf (u.ring n) r.prev = min (max (coeffOf r r.cls - o) (-1024)) 256)) ∧
  ∀ (p : PortId) (s : State), ∃ u, exec (.ffSuspendEnd p) s = .next u ∧ Keeps s u [aRngFfcfg p] ∧ u.opt = s.opt ∧
    ∀ b, u.bit (aRngFfcfg p) b = if b = 31 then false else s.bit (aRngFfcfg p) b

/-- Turns, measurements and margin tests (R266 to R271, R276). -/
def Obligations.CalibrationTurns : Prop :=
  (∀ s : State, calDue s s.opt.ended = false → exec (.calTurnStart none) s = .next s) ∧
  (∀ s : State, calDue s s.opt.ended = true → s.beat.toNat % 32 < 4 → s.beat.toNat / 32 % 256 = 0 →
    (∀ p ∈ internalPorts, (s.port p).turn = none ∧ handingOver s p = false) → s.opt.atGuard = [] →
    let l : LaneId := Fin.ofNat 18 s.opt.next
    ∃ u, exec (.calTurnStart none) s = .next u ∧ u.opt.next = (s.opt.next + 1) % 18 ∧ KeepsMemory s u ∧
      ∀ p ∈ internalPorts, rngState s p = rngUp → (s.port p).excluded.getLsbD l = false →
        (16 < usableLanes s p → (u.port p).turn = some { lane := l, tx := laneRole s p true l ≠ roleDark } ∧
          (laneRole s p true l ≠ roleDark → laneRole u p true l = roleCal ∧ u.bit (aRngUse p) l = false) ∧
          laneRole u p false l = roleCal ∧ u.bit (aRngRxuse p) l = false ∧ rngState u p = rngUp) ∧
        (usableLanes s p ≤ 16 → (u.port p).turn = none ∧ laneEvent p l 3 ∈ u.reports ∧ u.rd (aRngUse p) = s.rd (aRngUse p))) ∧
  (∀ (p : PortId) (m : CalMeas) (s : State),
    let mine (t : CalTurn) : Bool := t.lane = m.lane && t.tx = m.tx && t.rx = m.rx
    isXPort p = false → (s.port p).turn.filter mine = none → (s.port p).accept.find? mine = none →
      exec (.calMeasurementDone p m) s = .next s) ∧
  (∀ (p : PortId) (m : CalMeas) (t : CalTurn) (s : State), (s.port p).turn = some t → t.lane = m.lane → t.tx = m.tx → t.rx = m.rx →
    ∃ u, exec (.calMeasurementDone p m) s = .next u ∧ KeepsMemory s u ∧
      let role (v : Nat) : Prop := (t.tx = true → laneRole s p true t.lane ≠ roleDark → laneRole u p true t.lane = v) ∧
        (t.rx = true → laneRole u p false t.lane = v)
      (t.void = true → (u.port p).turn = some { t with void := false } ∧ Keeps s u []) ∧
      (t.void = false → t.prev = none → (u.port p).turn = some { t with prev := some m } ∧ Keeps s u []) ∧
      (∀ a, t.void = false → t.prev = some a → measAgree a m = true →
        (u.port p).turn = none ∧ u.bit (aRngCalstat p) 31 = false ∧ (u.port p).values = (s.port p).values ++ [(t, m)] ∧
          (t.tx = true → u.bit (aRngLock p) t.lane = true) ∧ (t.rx = true → u.bit (aRngRxlock p) t.lane = true) ∧
          (s.bit (aRngSuspect p) t.lane = false ∨ (s.port p).once.getLsbD t.lane = true →
            role roleUsable ∧ u.bit (aRngSuspect p) t.lane = false) ∧
          (s.bit (aRngSuspect p) t.lane = true → (s.port p).once.getLsbD t.lane = false →
            role roleSuspect ∧ u.bit (aRngSuspect p) t.lane = true ∧ (u.port p).once.getLsbD t.lane = true)) ∧
      (∀ a, t.void = false → t.prev = some a → measAgree a m = false → t.again < 3 →
        (u.port p).turn = some { t with prev := some m, again := t.again + 1 } ∧ Keeps s u [aRngCalstat p]) ∧
      (∀ a, t.void = false → t.prev = some a → measAgree a m = false → 3 ≤ t.again →
        (u.port p).turn = none ∧ u.bit (aRngSuspect p) t.lane = true ∧ role roleSuspect)) ∧
  ∀ (p : PortId) (nrz pam4 pam6 : Option (BitVec 18)) (s : State),
    (inTest s p = false → exec (.marginTestDone p nrz pam4 pam6) s = .next s) ∧
    (inTest s p = true →
      let tested := testedModes s p nrz pam4 pam6
      let n (o : Option (BitVec 18)) : Nat := (o.map bits18).getD 0
      let chosen := selectMode s p (tested.1.getD 0) (tested.2.1.getD 0) (tested.2.2.getD 0)
      ∃ u, exec (.marginTestDone p nrz pam4 pam6) s = .next u ∧ KeepsMemory s u ∧
        u.rd (aRngMargin p) = BitVec.ofNat 32 (n tested.2.2 * 2 ^ 24 + n tested.2.1 * 2 ^ 16 + n tested.1 * 2 ^ 8) ∧
        (chosen = none → u.rd (aRngUse p) = 0 ∧ u.rd (aRngRxuse p) = 0 ∧ rngState u p = rngDown) ∧
        ∀ mode pass, chosen = some (mode, pass) →
          portMode u p = mode ∧
          rngState u p = (if dataLanes u p < 8 then rngDown else if startTests s = true ∧ 120 ≤ p.val ∧ p.val < 128 then rngTest else rngUp) ∧
            ∀ l : LaneId, (u.bit (aRngUse p) l = true ↔
              pass.getLsbD l = true ∧ litRole s p l = true ∧ lineCut s p l = false ∧ s.bit (aRngSuspect p) l = false) ∧
              (u.bit (aRngRxuse p) l = true ↔ pass.getLsbD l = true ∧ s.bit (aRngSuspect p) l = false))

/-- The last-good table (R259, R260). -/
def Obligations.LastGoodTable : Prop :=
  (∀ s : State, lgtBusy s = true → exec .lgtPeriodic s = .next s) ∧
  (∀ (c : LgtCopy) (s : State), lgtBusy s = false → lgtCopy s = some c → lgtChanged c.data (lgtNow s) = false →
    exec .lgtPeriodic s = .next s) ∧
  (∀ s : State, lgtBusy s = false → (∀ c, lgtCopy s = some c → lgtChanged c.data (lgtNow s) = true) →
    ∃ (u : State) (b : Bool), exec .lgtPeriodic s = .next u ∧ lgtBusy u = true ∧ u.opt.writing = some (b, lgtNow s) ∧
      Keeps s u [aHubLgt] ∧ lgtActiveB u = lgtActiveB s ∧
      ((lgtCopy s).isSome = true → b = !lgtActiveB s ∧ lgtCopy u = lgtCopy s)) ∧
  (∀ s : State, s.opt.writing = none → exec .lgtWriteDone s = .next s) ∧
  ∀ (b : Bool) (data : LgtData) (s : State), s.opt.writing = some (b, data) →
    ∃ u, exec .lgtWriteDone s = .next u ∧ u.opt.writing = none ∧ lgtBusy u = false ∧ lgtActiveB u = b ∧ Keeps s u [aHubLgt] ∧
      lgtCopy u = some { gen := BitVec.ofNat 24 (s.fld aHubLgt 23 0) + 1, data := data } ∧
      u.fld aHubLgt 23 0 = (s.fld aHubLgt 23 0 + 1) % 2 ^ 24 ∧
      (if b = true then u.eeprom.lgtA = s.eeprom.lgtA else u.eeprom.lgtB = s.eeprom.lgtB)

/-! ### Light supply and eye safety (R287 to R306) -/

/-- Lines, drives and the record (R289 to R298). -/
def Obligations.LinesAndDrives : Prop :=
  (∀ (b : BankId) (i : Fin 20) (pm : Int) (s : State),
    let past := (SMap.get (fun _ => []) (s.bank b).recent i).filter fun x => s.ns ≤ x.1.toNat + 1000000
    ∃ u, exec (.pmReport b i pm) s = .next u ∧ u.fld (aLbMon b i) 15 0 = ofInt16 pm ∧ KeepsMemory s u ∧
      ((∀ x ∈ past, x.2 - pm < 30) → Keeps s u [aLbMon b i]) ∧
      ∀ w : LaneId, (∃ x ∈ past, 30 ≤ x.2 - pm) →
        (List.finRange 18).find? (fun (w : LaneId) => sourceLaser (lineSource s b w) w = some i.val) = some w →
        lineState s b w ≠ lineHandover → lineState s b w ≠ lineLost →
        lineState u b w = lineHandover ∧ (u.bank b).waiting = (s.bank b).waiting ++ [w] ∧
          ((s.bank b).ho = none → Keeps s u [aLbMon b i, aLbLine b w])) ∧
  (∀ fs : List Nat, (fs.length < 4 → lineFigure fs = none) ∧
    (4 ≤ fs.length → ∃ m ∈ fs, lineFigure fs = some m ∧ (fs.filter (· < m)).length ≤ (fs.length - 1) / 2 ∧
      (fs.filter (m < ·)).length ≤ fs.length - 1 - (fs.length - 1) / 2)) ∧
  (∀ (b : BankId) (w : LaneId) (obs : List SmfObs) (s : State), lineState s b w = lineActive ∨ lineState s b w = lineRaising →
    let fig := lineFigure ((obs.filter fun o => bankOf o.port = b.val).filterMap (smf s w))
    ∃ u, exec (.lmfUpdate b w obs) s = .next u ∧ ((s.bank b).ho = none → Keeps s u [aLbLine b w]) ∧ lineSource u b w = lineSource s b w ∧
      lineDrive u b w = lineDrive s b w ∧
      (fig = none → lineState u b w = lineConstant ∧ u.bit (aLbLine b w) 26 = true ∧ bankEvent b w 3 ∈ u.reports) ∧
      ∀ f, fig = some f → u.bit (aLbLine b w) 26 = false ∧ u.fld (aLbLine b w) 23 16 = f % 256 ∧
        (fadeEn s b = false → lineState u b w = lineState s b w) ∧
        (fadeEn s b = true → f < 64 ∨ (f < 96 ∧ lineDrive s b w = drvMax s b) → lineState u b w = lineHandover ∧
          (u.bank b).waiting = (s.bank b).waiting ++ [w]) ∧
        (∀ pm ref, fadeEn s b = true → linePower s b w = some (pm, ref) → 64 ≤ f → f < 96 → lineDrive s b w ≠ drvMax s b →
          pm ≤ ref - 5 → lineState u b w = lineRaising) ∧
        (∀ pm ref, fadeEn s b = true → linePower s b w = some (pm, ref) → 64 ≤ f → f < 96 → lineDrive s b w ≠ drvMax s b →
          ref - 5 < pm → lineState u b w = lineActive ∧ u.bit (aLbLine b w) 24 = true) ∧
        (∀ pm ref, fadeEn s b = true → linePower s b w = some (pm, ref) → 112 ≤ f → lineState u b w = lineActive)) ∧
  (∀ (b : BankId) (w : LaneId) (s : State), (fadeEn s b = false ∨ bankOff s b = true → exec (.driveStep b w) s = .next s) ∧
    ∀ pm ref, fadeEn s b = true → bankOff s b = false → linePower s b w = some (pm, ref) → lineState s b w = lineRaising → pm < ref →
      s.fld (aLbLine b w) 23 16 < 112 → lineDrive s b w < drvMax s b →
      ∃ u, exec (.driveStep b w) s = .next u ∧ lineDrive u b w = min (lineDrive s b w + 5) (drvMax s b) ∧
        lineState u b w = lineRaising ∧ Keeps s u [aLbLine b w, aLbEvt b]) ∧
  (∀ (b : BankId) (s : State), (s.bank b).ho = none → exec (.spareTuneTimeout b) s = .next s) ∧
  (∀ (b : BankId) (h : Handover) (s : State), (s.bank b).ho = some h → h.stage = 0 →
    ∃ u, exec (.spareTuneTimeout b) s = .next u ∧ spareState u b h.spare = spareFailed ∧ bankEvent b h.line 1 ∈ u.reports ∧
      u.light.dirty = true ∧ KeepsMemory s u ∧ ∀ t : Fin 2, t ≠ h.spare →
        (spareState s b t = spareIdle → (u.bank b).ho = some { line := h.line, spare := t, ports := h.ports } ∧
          spareState u b t = spareTuning ∧ lineState u b h.line = lineState s b h.line) ∧
        (spareState s b t ≠ spareIdle → (u.bank b).ho = none ∧ lineState u b h.line = lineLost ∧ lineSource u b h.line = 3 ∧
          lineDrive u b h.line = 0 ∧ bankEvent b h.line 4 ∈ u.reports)) ∧
  ∀ s : State, (s.light.dirty = false → exec .bankRecordWrite s = .next s) ∧
    (s.light.dirty = true → ∃ u, exec .bankRecordWrite s = .next u ∧ Keeps s u [] ∧ u.light.dirty = false ∧
      u.light.recB = !s.light.recB ∧ u.light.gen = s.light.gen + 1 ∧
      (if u.light.recB = true then u.eeprom.bankB else u.eeprom.bankA) =
        some { gen := s.light.gen + 1, banks := (List.range 8).map (bankNow s) } ∧
      (if u.light.recB = true then u.eeprom.bankA = s.eeprom.bankA else u.eeprom.bankB = s.eeprom.bankB))

/-- Handovers (R294, R295). -/
def Obligations.Handovers : Prop :=
  (∀ (b : BankId) (w : LaneId) (s : State), (s.bank b).ho.isSome = true ∨ (s.bank b).waiting.head? ≠ some w ∨ bankOff s b = true →
    exec (.handoverStart b w) s = .next s) ∧
  (∀ (b : BankId) (w : LaneId) (s : State), (s.bank b).ho = none → (s.bank b).waiting.head? = some w → bankOff s b = false →
    ∃ u, exec (.handoverStart b w) s = .next u ∧ KeepsMemory s u ∧ (u.bank b).waiting = (s.bank b).waiting.tail ∧
      (idleSpare s b = none → lineState u b w = lineLost ∧ lineSource u b w = 3 ∧ lineDrive u b w = 0 ∧ (u.bank b).ho = none) ∧
      ∀ t, idleSpare s b = some t → spareState u b t = spareTuning ∧ u.fld (aLbState b) 4 0 = w.val ∧
        ∃ h, (u.bank b).ho = some h ∧ h.line = w ∧ h.spare = t ∧ h.stage = 0 ∧
          ∀ p ∈ fedPorts b, takesPart s p = true → p ∉ SMap.get (fun _ => []) (s.bank b).early w →
            laneRole s p true w = roleUsable → (s.port p).turn = none → s.opt.atGuard = [] →
              p ∈ h.ports ∧ laneRole u p true w = roleDark ∧ willUse u p true w = false) ∧
  (∀ (b : BankId) (s : State),
    (∀ n (i : Instr), (n, i) ∈ [(0, .spareLocked b), (1, .shutterOpen b), (2, .sourceRampDone b), (3, .handoverCheck b []),
        (4, .handoverCutIn b)] → ((s.bank b).ho.map (·.stage)) ≠ some n → exec i s = .next s) ∧
    ∀ h, (s.bank b).ho = some h →
      (h.stage = 0 → ∃ u, exec (.spareLocked b) s = .next u ∧ (u.bank b).ho = some { h with stage := 1 } ∧ Keeps s u []) ∧
      (h.stage = 1 → ∃ u, exec (.shutterOpen b) s = .next u ∧ (u.bank b).ho = some { h with stage := 2 } ∧ Keeps s u []) ∧
      (h.stage = 2 → ∃ u, exec (.sourceRampDone b) s = .next u ∧ (u.bank b).ho = some { h with stage := 3 } ∧
        lineSource u b h.line = 1 + h.spare.val ∧ lineDrive u b h.line ≤ drvMax s b ∧ lineState u b h.line = lineState s b h.line ∧
        (∀ i, sourceLaser (lineSource s b h.line) h.line = some i → i < 20 → (u.bank b).failed.getLsbD i = true) ∧
        Keeps s u [aLbLine b h.line, aLbSpare b 0, aLbSpare b 1, aLbState b]) ∧
      (∀ passed, h.stage = 3 → ∃ u, exec (.handoverCheck b passed) s = .next u ∧ KeepsMemory s u ∧
        (∃ g, (u.bank b).ho = some g ∧ g.stage = 4 ∧ g.passed = h.ports.filter fun p => takesPart s p && (passed.contains p && farLight s p h.line)) ∧
        ∀ p ∈ h.ports, takesPart s p = true → p ∉ passed ∨ farLight s p h.line = false → laneEvent p h.line 6 ∈ u.reports ∧ laneRole u p true h.line = roleCal) ∧
      (h.stage = 4 → ∃ u, exec (.handoverCutIn b) s = .next u ∧ (u.bank b).ho = none ∧ KeepsMemory s u ∧
        lineState u b h.line = lineActive ∧ spareState u b h.spare = spareActive ∧ u.light.dirty = true ∧
        bankEvent b h.line 0 ∈ u.reports ∧
        ∀ p ∈ h.passed, takesPart s p = true → s.opt.atGuard = [] → laneRole u p true h.line = roleUsable ∧
          willUse u p true h.line = true))

/-- Eye safety (R303 to R305). -/
def Obligations.EyeSafety : Prop :=
  let dark (s u : State) (x cause : Nat) : Prop := eyeState u x ≠ eyeLit ∧ (eyeState s x ≠ eyeLit → eyeState s x ≠ eyeArmed → eyeState u x = eyeState s x) ∧
    (eyeState s x = eyeLit → eyeState u x = eyeDark ∧ u.fld (aEyeState x) 7 4 = cause ∧ lnkState u x ≤ lnkDown)
  (∀ (x : XPort) (s : State), (eyeState s x ≠ eyeLit → exec (.lossOfLight x) s = .next s) ∧
    ∃ u, exec (.lossOfLight x) s = .next u ∧ dark s u x 1 ∧ KeepsMemory s u ∧ ∀ y : XPort, y ≠ x → u.rd (aEyeState y) = s.rd (aEyeState y)) ∧
  (∀ (f : Fin 2) (s : State), ∃ u, exec (.ferruleOpen f) s = .next u ∧ KeepsMemory s u ∧
    ∀ x : XPort, if x.val / 8 = f.val then dark s u x 2 ∧ eyeState u x ≠ eyeArmed ∧ u.bit (aEyeState x) 3 = false
      else u.rd (aEyeState x) = s.rd (aEyeState x)) ∧
  (∀ (f : Fin 2) (s : State), ∃ u, exec (.ferruleClose f) s = .next u ∧ Keeps s u ((ferrulePorts f).map aEyeState) ∧
    ∀ x : XPort, x.val / 8 = f.val → ∀ b, b < 32 → u.bit (aEyeState x) b = if b = 3 then true else s.bit (aEyeState x) b) ∧
  (∀ s : State, ∃ u, exec .lb6LightLoss s = .next u ∧ KeepsMemory s u ∧ u.light.lb6Dark = true ∧
    ∀ x : XPort, dark s u x 4 ∧ eyeState u x ≠ eyeArmed) ∧
  (∀ (x : XPort) (s : State), (s.light.darkening.getLsbD x = false → exec (.darkConfirmTimeout x) s = .next s) ∧
    (s.light.darkening.getLsbD x = true → ∃ u, exec (.darkConfirmTimeout x) s = .next u ∧ eyeState u x = eyeLocked ∧ KeepsMemory s u ∧
      u.light.lb6Off = true ∧ (∀ w : LaneId, lineDrive u 6 w = 0) ∧ (∀ y : XPort, eyeState u y ≠ eyeLit ∧ eyeState u y ≠ eyeArmed) ∧
      contained 26 0x31 2 x 2 ∈ u.reports)) ∧
  ∀ (x : XPort) (s : State),
    (mayLight s x = false → exec (.lightDetected x) s = .next s ∧ exec (.eyeProbe x) s = .next s) ∧
    (mayLight s x = true → eyeState s x = eyeDark →
      (∃ u, exec (.lightDetected x) s = .next u ∧ eyeState u x = eyeArmed ∧ Keeps s u [aEyeState x, aEyeCnt x]) ∧
      ∃ u, exec (.eyeProbe x) s = .next u ∧ Keeps s u [aEyeCnt x] ∧ u.fld (aEyeCnt x) 15 0 = min (s.fld (aEyeCnt x) 15 0 + 1) 65535) ∧
    (mayLight s x = true → eyeState s x = eyeArmed → ∃ u, exec (.lightDetected x) s = .next u ∧ eyeState u x = eyeLit ∧
      rngState u (96 + x.val) = rngSearch ∧ Keeps s u [aEyeState x, aRngState (96 + x.val), aRngRxlock (96 + x.val)]) ∧
    (eyeState s x = eyeArmed → ∃ u, exec (.armedTimeout x) s = .next u ∧ eyeState u x = eyeDark ∧ Keeps s u [aEyeState x]) ∧
    (eyeState s x ≠ eyeArmed → exec (.armedTimeout x) s = .next s)

/-! ### External links (R312 to R358) -/

/-- The wire formats of R321 to R323, written and read back. -/
def Obligations.FlitsAndMessagesReadBack : Prop :=
  (∀ f : Flit, f.typ < 16 → f.vc < 4 → f.plen < 256 → f.payload.length = 240 →
    (flitBytes f false).length = 256 ∧ parseFlit (flitBytes f false) = some f ∧ parseFlit (flitBytes f true) = none) ∧
  (∀ (m : XMsg) (rest : List Byte), m.len < 2 ^ 16 →
    m.data.length = (if m.kind = 0x01 ∨ (m.kind = 0x81 ∧ m.status ≠ 0) then 0 else m.len) →
    parseXmsg (xmsgBytes m ++ rest) = some m ∧ xmsgLen (xmsgBytes m ++ rest) = (xmsgBytes m).length) ∧
  crc32 [0x31, 0x32, 0x33, 0x34, 0x35, 0x36, 0x37, 0x38, 0x39] = 0xCBF43926

/-- Flits of a link (R319 to R334). -/
def Obligations.LinkFlits : Prop :=
  ∀ (l : LinkId) (s : State),
    let k := s.link l
    let err : Nat := if isPfl l = true then aHlkErr0 else aLnkErr0 l
    (∀ (lanes : List (Fin 18)) (heard : List (List Nat)),
      let s₁ := takeIn s l (lanes.zip heard)
      (linkTalks s l = false → exec (.flitReceive l lanes heard) s = .next s) ∧
      (linkTalks s l = true → (s₁.phy l).ready = [] → ∃ u, exec (.flitReceive l lanes heard) s = .next u ∧ Keeps s u [err] ∧
        u.link l = { k with phy := s₁.phy l } ∧ u.mesh = s.mesh) ∧
      ∀ g gs, (s₁.phy l).ready = g :: gs →
        (linkTalks s l = true → g.lost = true ∨ parseFlit g.bytes = none → ∃ u, exec (.flitReceive l lanes heard) s = .next u ∧
          Keeps s u [err] ∧ u.link l = { k with phy := { s₁.phy l with ready := gs }, lost := k.lost + 1 } ∧ u.mesh = s.mesh) ∧
        ∀ f : Flit, linkUp s l = true → g.lost = false → parseFlit g.bytes = some f → reservedFlit l f = false → f.ack = k.acked →
          tMsg ≤ f.typ →
          (f.seq = k.exp → k.held = [] → ∃ u, exec (.flitReceive l lanes heard) s = .next u ∧ Keeps s u [err] ∧
            (u.link l).exp = k.exp + 1 ∧ (u.link l).held = [] ∧ (u.link l).buf = k.buf ∧
            ((u.link l).chan ((if f.cvc = true then 1 else 0) + (if isPfl l = true ∧ f.first = true then 2 else 0))).credit = f.credit ∧
            (f.typ = tPlan → u.txq f.entry.toNat = s.txq f.entry.toNat ++
              [{ entry := f.entry, first := f.first, payload := f.payload, plen := f.plen, origin := none,
                 place := some (Fin.ofNat 128 (96 + l.val)) }])) ∧
          (1 ≤ (k.exp - f.seq).toNat → (k.exp - f.seq).toNat ≤ 512 → ∃ u, exec (.flitReceive l lanes heard) s = .next u ∧
            Keeps s u [err, aLnkErr1 l] ∧ (u.link l).exp = k.exp ∧ (u.link l).held = k.held ∧ u.mesh = s.mesh)) ∧
    (linkUp s l = false → k.lctl = [] → exec (.flitSend l) s = .next s) ∧
    (linkUp s l = true → isPfl l = false → k.lctl = [] →
      (∀ f, k.buf.find? (fun f => f.due) = some f → ∃ u, exec (.flitSend l) s = .next u ∧ (u.link l).next = k.next ∧
        (u.link l).wire = flitBytes (beginFlit k l f.typ f.vc f.first f.seq f.entry f.plen f.payload)
          (decide (2 ≤ f.typ.val) && injHits s l f.seq) ∧
        (u.link l).buf = (k.buf.map fun g => if g.seq = f.seq then { g with due := false, replays := g.replays + 1 } else g) ∧
        KeepsMemory s u) ∧
      ((∀ f ∈ k.buf, f.due = false) → msgReady s l 0 = false → msgReady s l 1 = false →
        (∀ p ps, k.planq = p :: ps → k.buf.length < 512 → hasCredit (k.chan 1) = true → ∃ u, exec (.flitSend l) s = .next u ∧
          (u.link l).next = k.next + 1 ∧ (u.link l).planq = ps ∧ KeepsMemory s u ∧
          (u.link l).buf = k.buf ++ [{ seq := k.next, typ := 3, vc := 1, first := p.first, entry := p.entry, plen := p.plen, payload := p.payload, origin := p.origin }]) ∧
        (k.planq = [] → ∃ u, exec (.flitSend l) s = .next u ∧ (u.link l).buf = k.buf ∧ (u.link l).next = k.next ∧ KeepsMemory s u ∧
          ((s.port (96 + l.val)).values = [] → Keeps s u []) ∧
          (u.link l).wire = flitBytes (beginFlit k l tIdle 0 false k.next 0 0 []) false ∧
          (k.phy.block.length < 1024 → (u.link l).phy = { k.phy with block := k.phy.block ++ (u.link l).wire })))) ∧
    (∀ (n : BitVec 16) (f : XTx), linkUp s l = true → k.buf.find? (fun f => f.seq = n) = some f →
      (f.replays < 7 → ∃ u, exec (.nak l n) s = .next u ∧ Keeps s u [] ∧
        (u.link l).buf = k.buf.map fun g => if g.seq = n then { g with due := true } else g) ∧
      (7 ≤ f.replays → isPfl l = false → k.culprit = none → (s.port (96 + l.val)).values = [] → ∃ u, exec (.nak l n) s = .next u ∧ lnkState u l = lnkRetrain ∧
        (u.link l).buf = k.buf ∧ Keeps s u [aLnkState l, aLnkErr2 l, aHlkRetq])) ∧
    (∀ n, (∀ f ∈ k.buf, f.seq ≠ n) → ∃ u, exec (.nak l n) s = .next u ∧ Keeps s u [] ∧ (u.link l).buf = k.buf) ∧
    (k.timer = none → exec (.replayTimer l) s = .next s) ∧
    ∀ b f fs, k.timer = some b → k.buf = f :: fs → linkUp s l = true →
      (s.ns < b.toNat + timerNs s l → exec (.replayTimer l) s = .next s) ∧
      (b.toNat + timerNs s l ≤ s.ns → f.replays < 7 → ∃ u, exec (.replayTimer l) s = .next u ∧ Keeps s u [] ∧
        (u.link l).timer = some s.stampNs ∧ (u.link l).buf = k.buf.map fun g => if g.seq = f.seq then { g with due := true } else g)

/-- Alignment and width changes (R314, R315, R336 to R339). -/
def Obligations.LaneMaps : Prop :=
  ∀ (x : XPort) (s : State),
    let k := s.link x
    (∀ (l : LaneId) (seen : List (BitVec 20)) (skew : Nat),
      (commasAlign seen skew = false → exec (.laneAligned x { lane := l, seen := seen, skewPs := skew }) s = .next s) ∧
      (commasAlign seen skew = true → ∃ u, exec (.laneAligned x { lane := l, seen := seen, skewPs := skew }) s = .next u ∧ Keeps s u [] ∧ (u.link x).buf = k.buf ∧
        ∀ m : LaneId, (u.link x).aligned.getLsbD m = (decide (m = l) || k.aligned.getLsbD m)) ∧
      (k.aligned.getLsbD l = false ∨ commasMissed seen = false → exec (.laneAlignLoss x { lane := l, seen := seen }) s = .next s) ∧
      (k.aligned.getLsbD l = true → commasMissed seen = true → ∃ u, exec (.laneAlignLoss x { lane := l, seen := seen }) s = .next u ∧
        (u.link x).aligned.getLsbD l = false ∧ KeepsMemory s u ∧ u.bit (aRngRxlock (96 + x.val)) l = false)) ∧
    (∀ map gen q, lnkState s x = lnkUp →
      let ok := 8 ≤ bits18 map ∧ map &&& ~~~k.aligned = 0
      ∃ u, exec (.announce x map gen q) s = .next u ∧ Keeps s u [] ∧
        (ok → (u.link x).lctl = k.lctl ++ [mapMsg 0x03 map gen 0]) ∧ (¬ ok → (u.link x).lctl = k.lctl) ∧
        (gen ≠ rxGen s x → ∃ c, (u.link x).rxChange = some c ∧ c.map = map ∧ c.gen = gen ∧ (c.accepted = true ↔ ok))) ∧
    (∀ map gen c, k.change = some c → ∃ u, exec (.accept x map gen) s = .next u ∧ Keeps s u [] ∧
      (c.map = map → c.gen = gen → (u.link x).change = some { c with accepted := true } ∧ ∀ m ∈ (u.link x).repeats, kindIs 0x02 m = false) ∧
      (c.map ≠ map ∨ c.gen ≠ gen → (u.link x).change = some c ∧ (u.link x).repeats = k.repeats)) ∧
    (∀ (l : LaneId) (ret : Bool), lnkState s x = lnkUp → k.change = none → k.changes = [] →
      let b : BitVec 18 := BitVec.ofNat 18 (2 ^ l.val)
      let far := if ret = true then k.farRx ||| b else k.farRx &&& ~~~b
      let map := lowest16 ((s.rd (aRngUse (96 + x.val))).truncate 18 &&& far)
      ∃ u, exec (.laneReq x l ret) s = .next u ∧ Keeps s u [] ∧ (u.link x).lctl = k.lctl ++ [mapMsg 0x02 map (!txGen s x) k.next] ∧
        (u.link x).change = some
          { map := map, gen := !txGen s x, s := k.next, accepted := false, why := some { lane := l, enter := ret, own := false } }) ∧
    (k.change = none → exec (.announceTimeout x) s = .next s ∧ exec (.mapChange x) s = .next s) ∧
    (∀ c, k.change = some c → lnkState s x = lnkUp →
      (c.accepted = true → exec (.announceTimeout x) s = .next s) ∧ (c.accepted = false → exec (.mapChange x) s = .next s) ∧
      (c.accepted = false → (s.port (96 + x.val)).values = [] → ∃ u, exec (.announceTimeout x) s = .next u ∧ lnkState u x = lnkRetrain ∧
        (u.link x).change = some { c with accepted := true } ∧ Keeps s u [aLnkState x, aLnkErr2 x, aHlkRetq]) ∧
      (c.accepted = true → k.changes = [] → (s.port (96 + x.val)).values = [] → ∃ u, exec (.mapChange x) s = .next u ∧ txMap u x = c.map ∧ txGen u x = c.gen ∧
        (u.link x).change = none ∧ u.fld (aLnkWidth x) 28 24 = min (bits18 c.map) (bits18 (rxMap s x)) ∧
        Keeps s u [aLnkWidth x, aRngUse (96 + x.val), aRngState (96 + x.val)] ∧
        ∀ w, c.why = some w → w.own = true → u.bit (aRngUse (96 + x.val)) w.lane = w.enter)) ∧
    (∀ shown : List (Fin 18 × BitVec 20), lnkState s x = lnkUp →
      let gen := shownGen (rxMap s x) shown (rxGen s x)
      (gen = rxGen s x → exec (.frameGenerationChange x shown) s = .next s) ∧
      (gen ≠ rxGen s x → k.rxChange = none → ∃ u, exec (.frameGenerationChange x shown) s = .next u ∧ lnkState u x = lnkRetrain ∧
        rxMap u x = rxMap s x ∧ KeepsMemory s u) ∧
      (∀ c, gen ≠ rxGen s x → k.rxChange = some c → c.accepted = true → c.gen = gen →
        ∃ u, exec (.frameGenerationChange x shown) s = .next u ∧ rxMap u x = c.map ∧ rxGen u x = gen ∧ (u.link x).rxChange = none ∧
          Keeps s u [aLnkRxmap x, aLnkWidth x, aRngRxuse (96 + x.val), aRngState (96 + x.val)])) ∧
    ∃ (u : State) (ms : List (List Byte)), exec (.lctlRepeat x) s = .next u ∧ Keeps s u [] ∧ (u.link x).lctl = k.lctl ++ ms ∧
      (∀ m ∈ ms, m ∈ k.repeats) ∧ (u.link x).repeats = (k.repeats.filter fun m => !laneReqOver s k m) ∧
      ∀ m ∈ k.repeats, laneReqOver s k m = false → m ∈ (u.link x).lctl

/-- Retrain, down and grace (R340 to R343). -/
def Obligations.LinkStates : Prop :=
  ∀ (x : XPort) (s : State),
    let k := s.link x
    let kept (u : State) : Prop := (u.link x).next = k.next ∧ (u.link x).exp = k.exp ∧ (u.link x).held = k.held ∧
      (u.link x).reqq = k.reqq ∧ (u.link x).rspq = k.rspq ∧ (u.link x).planq = k.planq ∧ (u.link x).chans = k.chans
    (∀ cause, cause ≠ .message →
      (lnkState s x ≠ lnkUp → exec (.retrain x cause) s = .next s) ∧
      (lnkState s x = lnkUp → ∃ u, exec (.retrain x cause) s = .next u ∧ lnkState u x = lnkRetrain ∧ kept u ∧ (u.link x).buf = k.buf ∧
        (u.link x).lctl = k.lctl ++ [retrainMsg (retrainCode cause), readyMsg (mapAligned s x)] ∧
        ((s.port (96 + x.val)).values = [] → Keeps s u [aLnkState x, aLnkErr2 x, aHlkRetq]))) ∧
    (lnkState s x = lnkRetrain → mapAligned s x = true → k.change = none → k.rxChange = none → k.changes = [] →
      ∃ u, exec (.ready x true) s = .next u ∧ lnkState u x = lnkUp ∧ kept u ∧ (∀ f ∈ (u.link x).buf, f.due = true) ∧
        (u.link x).buf.map (·.seq) = k.buf.map (·.seq) ∧
        ((s.port (96 + x.val)).values = [] → Keeps s u [aLnkState x, aHlkRetq])) ∧
    (∃ u, exec (.ready x false) s = .next u ∧ Keeps s u [] ∧ kept u) ∧
    (lnkState s x ≠ lnkRetrain → exec (.retrainTimeout x) s = .next s) ∧
    (lnkState s x = lnkRetrain → ∃ u, exec (.retrainTimeout x) s = .next u ∧ kept u ∧ (u.link x).buf = k.buf ∧
      (s.fld (aLnkState x) 5 4 < 2 → lnkState u x = lnkRetrain ∧ u.fld (aLnkState x) 5 4 = s.fld (aLnkState x) 5 4 + 1) ∧
      (2 ≤ s.fld (aLnkState x) 5 4 → lnkState u x = lnkDown ∧ u.fld (aLnkState x) 15 12 = 1)) ∧
    (∀ cause, cause ≠ .received →
      (lnkState s x ≤ lnkDown → exec (.down x cause) s = .next s) ∧
      (lnkDown < lnkState s x → ∃ u, exec (.down x cause) s = .next u ∧ lnkState u x = lnkDown ∧ kept u ∧ (u.link x).buf = k.buf ∧
        u.fld (aLnkState x) 15 12 = downCode cause ∧ u.bit aMmPeer x = false ∧
        (lnkAlive s x = true → u.bit (aLnkState x) 8 = true ∧ (u.link x).graceFrom = s.stampNs) ∧
        ((s.port (96 + x.val)).turn = none → (s.port (96 + x.val)).values = [] → k.change = none → k.changes = [] → k.rxAsk = [] →
          Keeps s u [aLnkState x, aLnkWidth x, aMmPeer, aMmAlign, aRngState (96 + x.val), aRngRxlock (96 + x.val), aLnkErr2 x,
            aHlkRetq]))) ∧
    (graceOver s x = false → exec (.graceExpiry x) s = .next s) ∧
    (graceOver s x = true → ∃ u, exec (.graceExpiry x) s = .next u ∧ u.bit (aLnkState x) 8 = false ∧ u.bit (aLnkState x) 9 = true ∧
      u.rd (aLnkSession x) = s.rd (aLnkSession x) + 1 ∧ u.rd (aLnkPsession x) = 0 ∧ contained 26 0x31 2 x 0 ∈ u.reports ∧
      ((∀ r ∈ s.remotes, r.x ≠ x) → heldOrigins s x = [] → u.callers = s.callers ∧ u.cctx = s.cctx ∧ (u.link x).buf = [] ∧
        (u.link x).reqq = [] ∧ (u.link x).rspq = [] ∧ (u.link x).planq = [] ∧ KeepsMemory s u))

/-- Negotiation and reports (R267, R291, R344, R345, R358). -/
def Obligations.LinkNegotiation : Prop :=
  ∀ (x : XPort) (s : State),
    let k := s.link x
    (∀ a : Advert, lnkState s x ≠ lnkTrain → ∃ u, exec (.advertise x a) s = .next u ∧ Keeps s u [] ∧ (u.link x).adv = k.adv) ∧
    (∀ (a : Advert) (m : Nat), lnkState s x = lnkTrain → expectedPeer s x = some m → m ≠ a.modNum.val →
      ∃ u, exec (.advertise x a) s = .next u ∧ lnkState u x = lnkDown ∧ (u.link x).stopped = true ∧ u.bit aMmPeer (16 + x.val) = true ∧
        contained 26 0x31 2 x 1 ∈ u.reports ∧ Keeps s u [aLnkState x, aMmPeer]) ∧
    (∀ a : Advert, lnkState s x = lnkTrain → (∀ m, expectedPeer s x = some m → m = a.modNum.val) → k.holds = false →
      a.have_ = false → ∃ u, exec (.advertise x a) s = .next u ∧ Keeps s u [] ∧ (u.link x).adv = some a ∧
        ∃ own : Advert, (u.link x).lctl = k.lctl ++ [advMsg own] ∧ own.have_ = true ∧ own.session = s.rd (aLnkSession x) ∧
          own.modNum.val = ownModule s ∧ own.held = 0) ∧
    (∀ (a : Advert) (c cf : Confirm), lnkState s x = lnkTrain → k.adv = some a → k.conf = some c →
      (confirmsAgree c cf = false → ∃ u, exec (.confirm x cf) s = .next u ∧ lnkState u x = lnkTrain ∧ (u.link x).adv = none ∧
        (u.link x).conf = none ∧ KeepsMemory s u) ∧
      (confirmsAgree c cf = true → c.resume = false → graceOver s x = false → ∃ u, exec (.confirm x cf) s = .next u ∧
        lnkState u x = lnkUp ∧ txMap u x = c.txMap ∧ rxMap u x = c.rxMap ∧ txGen u x = !txGen s x ∧ rxGen u x = !rxGen s x ∧
        u.bit (aLnkWidth x) 19 = c.strong ∧ u.fld (aLnkWidth x) 21 20 = c.mode.val ∧ u.rd (aLnkPsession x) = a.session ∧
        u.bit aMmPeer x = true ∧ (u.link x).buf = [] ∧ (u.link x).next = 0 ∧ (u.link x).exp = 0 ∧ KeepsMemory s u)) ∧
    (lnkState s x ≠ lnkTrain ∨ k.conf.isSome = true → exec (.negotiationRetry x) s = .next s) ∧
    (lnkState s x = lnkTrain → k.conf = none → ∃ u, exec (.negotiationRetry x) s = .next u ∧ lnkState u x = lnkTrain ∧
      (u.link x).adv = none ∧ (∃ own : Advert, (u.link x).lctl = [advMsg own] ∧ own.have_ = false) ∧ Keeps s u [aLnkState x]) ∧
    (∀ vals : List (Byte × Byte), ∃ u, exec (.mfrep x vals) s = .next u ∧ Keeps s u [] ∧ ∀ l v, vals[l]? = some v →
      SMap.get (fun _ => 0) (u.port (96 + x.val)).farE l = v.1.toNat ∧ SMap.get (fun _ => 0) (u.port (96 + x.val)).farMf l = v.2.toNat) ∧
    ∀ (l : LaneId) (mode : Fin 4) (levels : List (BitVec 16 × BitVec 16)), ∃ u, exec (.caldata x l mode levels) s = .next u ∧
      Keeps s u [] ∧ ∀ n, SMap.get (fun _ => []) (u.port (96 + x.val)).caldata n =
        if n = 4 * l.val + mode.val then levels else SMap.get (fun _ => []) (s.port (96 + x.val)).caldata n

/-! ### Between modules (R356 to R389) -/

/-- Beats between modules (R360 to R364). -/
def Obligations.BeatsBetweenModules : Prop :=
  (∀ (x : XPort) (frac frac' : Fin 16) (t1 : BitVec 64) (num : Word) (s : State),
    let k := s.link x
    (lnkState s x ≠ lnkUp → exec (.probeTimer x frac) s = .next s) ∧
    (lnkState s x = lnkUp →
      (∃ u, exec (.probeTimer x frac) s = .next u ∧ Keeps s u [] ∧ u.beat = s.beat ∧
        (u.link x).probes = k.probes ++ [{ num := k.probeNum + 1, t1 := BitVec.ofNat 64 (stamp s frac) }] ∧
        (u.link x).lctl = k.lctl ++ [beatMsg s 0 (leBytes 8 (stamp s frac) ++ leBytes 4 (k.probeNum + 1).toNat)]) ∧
      ∃ u, exec (.probe x t1 num frac frac') s = .next u ∧ Keeps s u [] ∧ u.beat = s.beat ∧ (u.link x).lctl = k.lctl ++
        [beatMsg s 1 (leBytes 8 t1.toNat ++ leBytes 8 (stamp s frac) ++ leBytes 8 (stamp s frac') ++ leBytes 4 num.toNat)]) ∧
    ∃ u, exec (.echoTimeout x num) s = .next u ∧ Keeps s u [] ∧ u.beat = s.beat ∧ ∀ p, p ∈ (u.link x).probes ↔ p ∈ k.probes ∧ p.num ≠ num) ∧
  (∀ (x : XPort) (t1 t2 t3 : BitVec 64) (num : Word) (frac : Fin 16) (s : State),
    let k := s.link x
    (k.probes.find? (fun p => p.num = num ∧ p.t1 = t1) = none → ∃ u, exec (.echo x t1 t2 t3 num frac) s = .next u ∧ Keeps s u [] ∧
      (u.link x).meas = k.meas ∧ u.beat = s.beat) ∧
    ∀ (p : Probe) (d o : Int), k.probes.find? (fun p => p.num = num ∧ p.t1 = t1) = some p → k.meas = [] →
      2 * d = ((stamp s frac : Int) - t1.toNat) - ((t3.toNat : Int) - t2.toNat) →
      2 * o = ((t2.toNat : Int) - t1.toNat) + ((t3.toNat : Int) - stamp s frac) →
      0 ≤ d → d < 65536 → -32768 ≤ o → o < 32768 →
      ∃ u, exec (.echo x t1 t2 t3 num frac) s = .next u ∧ (u.fld (aMmLink x) 31 16 : Int) = d ∧ offsetOf u x = o ∧ u.beat = s.beat ∧
        (u.link x).probes = k.probes.erase p ∧ Keeps s u [aMmLink x, aMmAlign]) ∧
  (∀ s : State, alignState s ≠ 1 → exec .beatStep s = .next s) ∧
  (∀ (os : List Int) (o : Int) (s : State), alignState s = 1 → peerOffsets s = some os → o ∈ os → (∀ o' ∈ os, o' ≤ o) →
    (o ≤ 8 → ∃ u, exec .beatStep s = .next u ∧ alignState u = 2 ∧ u.beat = s.beat ∧ Keeps s u [aMmAlign]) ∧
    (8 < o → mayStep s = false → exec .beatStep s = .next s) ∧
    (8 < o → mayStep s = true → ∃ u, exec .beatStep s = .next u ∧ u.beat = s.beat + BitVec.ofInt 64 ((o + 8) / 16) ∧
      Keeps s u [] ∧ u.boot.stepped = some s.ns ∧ ∀ x ∈ upPeers s, (u.link x).meas = [])) ∧
  (∀ s : State,
    (s.bit aMmSync 31 = true → s.beat.toNat % 2 ^ 20 = 0 →
      exec .syncOutPulse s = .next { s with pins := { s.pins with syncOut := some s.beat } }) ∧
    (s.bit aMmSync 31 = false ∨ s.beat.toNat % 2 ^ 20 ≠ 0 → exec .syncOutPulse s = .next s)) ∧
  ∀ (frac : Fin 16) (s : State), ∃ u, exec (.syncInEdge frac) s = .next u ∧ u.bit aMmSync 30 = true ∧ Keeps s u [aMmSync] ∧
    u.beat = s.beat ∧ ∀ d : Int, -32768 ≤ d → d < 32768 → (∃ n : Int, (stamp s frac : Int) = 2 ^ 24 * n + d) →
      (BitVec.ofNat 16 (u.fld aMmSync 15 0)).toInt = d

/-- The lease (R371 to R376). -/
def Obligations.PartnerLease : Prop :=
  ∀ s : State,
    let l := s.lease
    let queued (u : State) (m : List Byte) : Prop := (u.link partnerPort).lctl = (s.link partnerPort).lctl ++ [m]
    (prtState s ≠ prtLead → prtState s ≠ prtPairing → exec .renewTimer s = .next s) ∧
    (prtState s = prtLead → l.yieldSent = none → ∃ u, exec .renewTimer s = .next u ∧ u.lease.num = l.num + 1 ∧
      (l.num + 1, s.beat) ∈ u.lease.sent ∧ u.lease.grantSent = l.grantSent ∧ Keeps s u [aPrtCnt] ∧
      queued u (beatMsg s 2 (leBytes 4 (l.num + 1).toNat ++ leBytes 8 s.beat.toNat))) ∧
    (∀ (n : Word) (sent : BitVec 64),
      (prtState s = prtShadow → l.refusing = false → l.num.toNat ≤ n.toNat → ∃ u, exec (.renew n sent) s = .next u ∧
        u.lease.granted = some s.beat ∧ u.lease.num = n ∧ Keeps s u [] ∧ queued u (beatMsg s 3 (leBytes 4 n.toNat))) ∧
      (prtState s = prtLead ∨ (prtState s = prtShadow ∧ (l.refusing = true ∨ n.toNat < l.num.toNat)) →
        ∃ u, exec (.renew n sent) s = .next u ∧ u.lease = l ∧ Keeps s u [] ∧ queued u (beatMsg s 4 (leBytes 4 n.toNat))) ∧
      (∀ b, prtState s = prtLead → l.sent.find? (fun x => x.1 = n) = some (n, b) → ∃ u, exec (.grant n) s = .next u ∧ Keeps s u [] ∧
        u.lease.grantSent = if cutoffPassed s = true then l.grantSent else some b) ∧
      (l.sent.find? (fun x => x.1 = n) = none → ∃ u, exec (.grant n) s = .next u ∧ u.lease = l ∧ Keeps s u []) ∧
      (∃ u, exec (.refuse n) s = .next u ∧ Keeps s u [aPrtCnt] ∧ u.lease.grantSent = l.grantSent ∧ ∀ x ∈ u.lease.sent, x.1 ≠ n) ∧
      ∀ d : Word, prtState s = prtShadow → ∃ u, exec (.yield n d) s = .next u ∧ Keeps s u [] ∧
        u.lease = { l with yieldTake := some (s.beat + BitVec.ofNat 64 (d.toNat + 200000)) }) ∧
    (prtState s ≠ prtLead ∨ cutoffPassed s = false → exec .leadCutoff s = .next s) ∧
    (prtState s = prtLead → cutoffPassed s = true → ∃ u, exec .leadCutoff s = .next u ∧ prtState u = prtFenced ∧ emits u = false ∧
      KeepsMemory s u) ∧
    ((∀ b, l.granted = some b → s.beat.toNat < b.toNat + 2200000) → exec .takeover s = .next s) ∧
    (∀ b, l.granted = some b → b.toNat + 2200000 ≤ s.beat.toNat →
      (prtState s = prtShadow → ∃ u, exec .takeover s = .next u ∧ prtState u = prtLead ∧ emits u = true ∧ u.heldResults = [] ∧
        u.lease.granted = none ∧ Keeps s u [aPrtState, aPrtCnt, aHlkRetq]) ∧
      (prtState s = prtSyncing → ∃ u, exec .takeover s = .next u ∧ prtState u = prtFenced ∧ Keeps s u [aPrtState, aHlkRetq])) ∧
    (∀ (x : XPort) (m : ModId), ∃ u, exec (.groupfail x m) s = .next u ∧ Keeps s u [] ∧
      u.lease = if prtState s = prtShadow ∧ s.bit aPrtCfg (16 + m.val) = true then { l with refusing := true } else l) ∧
    (∀ b, l.yieldSent = some b → (s.beat.toNat < b.toNat + 1000000 → exec .yieldStop s = .next s) ∧
      (b.toNat + 1000000 ≤ s.beat.toNat → prtState s = prtLead → ∃ u, exec .yieldStop s = .next u ∧ prtState u = prtShadow ∧
        emits u = false ∧ Keeps s u [aPrtState, aHlkRetq])) ∧
    ∀ b, l.yieldTake = some b → (s.beat.toNat < b.toNat → exec .yieldTakeover s = .next s) ∧
      (b.toNat ≤ s.beat.toNat → prtState s = prtShadow → ∃ u, exec .yieldTakeover s = .next u ∧ prtState u = prtLead ∧
        u.heldResults = [] ∧ Keeps s u [aPrtState, aHlkRetq])

/-- Rejoin and mirror-compare (R374, R377, R378, R383, R384). -/
def Obligations.RejoinAndMirror : Prop :=
  ∀ s : State,
    let halted (u : State) (cause : Nat) : Prop := mcHalted u = true ∧ u.bit aMcFirst0 31 = true ∧ (∀ c, ctxState u c ≠ ctxRunning) ∧
      contained 24 0x24 7 0 cause ∈ u.reports ∧ (s.bit aMcFirst0 31 = false → u.fld aMcFirst0 18 16 = cause) ∧ (ReelsOff s → KeepsMemory s u)
    (prtState s = prtLead → ∃ u, exec .join s = .next u ∧ u.copyOp = some { round := 1 } ∧ u.fld aPrtCopy 31 28 = 1 ∧
      Keeps s u [aPrtCopy, aFltInj 4]) ∧
    (s.copyOp = none → exec .copyRound s = .next s) ∧
    (∀ o, s.copyOp = some o →
      (o.stepping = true → exec .copyRound s = .next s) ∧
      (o.stepping = false → runBytes (dirtyRuns o) ≤ 0x400000 ∨ 8 ≤ o.round → ∃ u, exec .copyRound s = .next u ∧
        u.copyOp = some { o with stepping := true } ∧ Keeps s u [aPrtCopy]) ∧
      (o.stepping = false → 0x400000 < runBytes (dirtyRuns o) → o.round < 8 → ∃ u, exec .copyRound s = .next u ∧
        u.copyOp = some { o with round := o.round + 1, dirty := [] } ∧ u.fld aPrtCopy 31 28 = o.round + 1 ∧
        Keeps s u [aPrtCopy, aFltInj 4]) ∧
      ∀ (c : CtxId) flag step r1 r2 vals, c ∈ o.hold → ∃ u, exec (.rejoinStepCopy c true flag step r1 r2 vals) s = .next u ∧
        Keeps s u [aFltInj 4] ∧ (if (∀ x ∈ residents s, x ∈ o.done ∨ x = c) then u.copyOp = none
          else u.copyOp = some { o with dirty := [], hold := o.hold.filter (· ≠ c), done := o.done ++ [c] })) ∧
    (∀ (c : CtxId) step rseed sseed vals, prtState s = prtSyncing →
      ∃ u, exec (.rejoinStepCopy c false false step rseed sseed vals) s = .next u ∧ u.rd64 (aHubCtxstep0 c) = step ∧
        u.rd64 (aHubCtxrseed0 c) = rseed ∧ u.rd64 (aHubCtxsseed0 c) = sseed ∧ (∀ q ∈ u.syncHeld, q.c ≠ c) ∧ KeepsMemory s u ∧
        prtState u = if (∀ x ∈ residents s, x ∈ s.lease.synced ∨ x = c) then prtShadow else prtSyncing) ∧
    (prtState s = prtLead → s.lease.yieldSent = none → ∃ u, exec (.failback true) s = .next u ∧ u.lease.yieldSent = some s.beat ∧
      Keeps s u []) ∧
    (prtState s = prtShadow → s.bit aPrtCfg 30 = true → s.bit aPrtCfg 29 = true →
      exec (.failback false) s = .next (if clean s = true then s.setLease { s.lease with asked := true } else s)) ∧
    (∃ u, exec .heldResultExpiry s = .next u ∧ Keeps s u [] ∧
      ∀ x, x ∈ u.heldResults ↔ x ∈ s.heldResults ∧ s.ns < x.1.toNat + s.fld aPrtCfg 15 8 * 1000000) ∧
    (∀ r : HashRec, mcEnabled s = true → mcHalted s = false → s.mc.length < 1024 → (∀ e ∈ s.mc, e.own = false → e.h.id ≠ r.id) →
      (∀ e, s.mc.find? (fun e => e.h.id = r.id) = some e → e.h.hash = r.hash → ∃ u, exec (.hash r) s = .next u ∧
        mcHalted u = false ∧ (∀ x, x ∈ u.mc ↔ x ∈ s.mc ∧ x.h.id ≠ r.id) ∧ Keeps s u [aMcStat]) ∧
      (∀ e, s.mc.find? (fun e => e.h.id = r.id) = some e → e.h.hash ≠ r.hash → ∃ u, exec (.hash r) s = .next u ∧ halted u 1) ∧
      ((∀ e ∈ s.mc, e.h.id ≠ r.id) → ∃ u, exec (.hash r) s = .next u ∧ u.mc = s.mc ++ [{ own := false, h := r, entered := s.stampNs }] ∧
        Keeps s u [])) ∧
    ∀ id : HashId,
      (∃ u, exec (.hashack id) s = .next u ∧ Keeps s u [] ∧ hashPending u id = false ∧ u.mc = s.mc) ∧
      (mcEnabled s = false → exec (.hashTimeout id) s = .next s) ∧
      (∀ cause : Byte, mcEnabled s = true → mcHalted s = false → ∃ u, exec (.mchalt cause id) s = .next u ∧ halted u 3) ∧
      ∀ e, mcEnabled s = true → mcHalted s = false → s.mc.find? (fun e => e.h.id = id) = some e →
        (e.entered.toNat + 10000000 ≤ s.ns → ∃ u, exec (.hashTimeout id) s = .next u ∧ halted u 2) ∧
        (s.ns < e.entered.toNat + 10000000 → hashPending s id = false → exec (.hashTimeout id) s = .next s)

/-! ### Host link (R411 to R425) -/

/-- The Pofold link below its flits (R411 to R425). Which request an end makes in EQ is open (log entry 27). -/
def Obligations.HostLinkTraining : Prop :=
  let lanes := (List.range 8).map aHlkLane
  let both (s : State) (far : Nat) : Bool := s.bit aHlkCfg 6 && far.testBit 1
  let taps (s u : State) (l : Fin 8) (pre post : Nat) : Prop :=
    tapPre u l = stepTap pre (tapPre s l) 8 ∧ tapPost u l = stepTap post (tapPost s l) 16 ∧
      u.fld (aHlkLane l) 16 11 = 48 - tapPre u l - tapPost u l
  let allowed (s : State) (m : Nat) (r : Bool) : Prop := m ∈ [1, 2, 4, 8] ∧ m ≤ 2 ^ s.fld aHlkCfg 5 4 ∧ (r = true → s.bit aHlkCfg 6 = true) ∧
    ∀ l, l < m → (if r = true then s.hlk.pass40 &&& s.hlk.farPass40 else s.hlk.pass20 &&& s.hlk.farPass20).getLsbD l = true
  let rate (r : Bool) : Nat := if r = true then 2 else 1
  (∀ (s : State) (n : Nat) (r : Bool), hlkSelect s = some (n, r) → allowed s n r ∧
    (∀ m q, allowed s m q → m * rate q ≤ n * rate r) ∧ (r = true → ∀ m, allowed s m false → m < n * 2)) ∧
  (∀ s : State, hlkSelect s = none → ∀ m r, ¬allowed s m r) ∧
  (∀ (l : Fin 8) (b : List (BitVec 16)) (s : State),
    (blockOk b = false → exec (.trainingBlock l b) s = .next s) ∧
    (blockOk b = true → blockPhase b = phReset → hlkState s ≠ 0 → hlkState s ≠ hlkDetect →
      exec (.trainingBlock l b) s = exec (.hostLinkReset .resetBlock) s) ∧
    (blockOk b = true → phDetect ≤ blockPhase b → blockPhase b ≤ phConfirm → hlkState s ≠ 0 → hlkState s ≠ hlkUp → s.hlk.retrain = false →
      ∃ u, exec (.trainingBlock l b) s = .next u ∧ u.hlk.aligned = s.hlk.aligned ||| lane8 l ∧
        u.hlk.far = BitVec.ofNat 8 (symAt b 2 % 256) ∧ u.hlk.farRates = symAt b 2 / 256 % 4 ∧
        u.hlk.farSession = BitVec.ofNat 32 (symAt b 6 + 65536 * symAt b 7) ∧ Keeps s u [aHlkLane l, aHlkState] ∧
        (s.hlk.phase = phDetect → u.hlk.aligned &&& u.hlk.far = 0 → u.hlk.phase = phDetect ∧ hlkState u = hlkDetect) ∧
        (s.hlk.phase = phDetect → u.hlk.aligned &&& u.hlk.far ≠ 0 → u.hlk.phase = phEq ∧ hlkState u = hlkTrain ∧
          u.hlk.rate40 = both s u.hlk.farRates) ∧
        (s.hlk.phase = phEq → blockPhase b = phEq → taps s u l (symAt b 3 % 4) (symAt b 3 / 4 % 4)) ∧
        (s.hlk.phase = phSelect → phSelect ≤ blockPhase b →
          if s.hlk.rate40 = true ∧ lanes8 (u.hlk.pass40 &&& u.hlk.farPass40) < 8 then u.hlk.phase = phEq ∧ u.hlk.rate40 = false
          else match hlkSelect u with
            | none => u.hlk.phase = phSelect
            | some p => u.hlk.phase = phConfirm ∧ u.hlk.sel = some p))) ∧
  (∀ s : State, (s.hlk.phase = phSelect → hlkSelect s = none → s.hlk.retrain = false → ∃ u, exec .trainingRestart s = .next u ∧
      u.hlk.phase = phDetect ∧ hlkState u = hlkDetect ∧ u.hlk.aligned = 0 ∧ u.hlk.eqDone = 0 ∧ Keeps s u [aHlkState]) ∧
    (s.hlk.phase ≠ phSelect ∨ (hlkSelect s).isSome = true ∨ s.hlk.retrain = true → exec .trainingRestart s = .next s)) ∧
  (∀ s : State, (s.hlk.sel = none ∨ s.hlk.phase ≠ phConfirm ∨ s.hlk.farSel ≠ s.hlk.sel → exec .linkUp s = .next s) ∧
    ∀ n r, s.hlk.sel = some (n, r) → s.hlk.farSel = some (n, r) → s.hlk.phase = phConfirm →
      ∃ u, exec .linkUp s = .next u ∧ hlkState u = hlkUp ∧ u.fld aHlkState 11 8 = n % 16 ∧ u.bit aHlkState 5 = r ∧
        (∀ l : Fin 8, u.bit (aHlkLane l) 0 = decide (l.val < n)) ∧ u.hlk.retrain = false ∧ u.hlk.fails = 0 ∧
        Keeps s u (aHlkState :: lanes) ∧
        (s.hlk.retrain = false → (u.link pfl).next = 0 ∧ (u.link pfl).buf = [] ∧
          (u.link pfl).lctl = (s.link pfl).lctl ++ [padTo 16 [0x20, 1, 2]] ∧
          (s.x15Host = false → u.retq = [] ∧ ∃ q : Sent, u.hostOut = s.hostOut ++ [q] ++ s.retq ∧
            q.msg = .notify 0 6 none (BitVec.ofNat 56 (s.hlk.oldSession.toNat * 256))
              (s.hlk.oldCounts.flatMap fun (c : Word) => leBytes 4 c.toNat))) ∧
        (s.hlk.retrain = true → (u.link pfl).next = (s.link pfl).next ∧
          (u.link pfl).buf.map (fun f => (f.seq, f.payload, f.due)) = (s.link pfl).buf.map (fun f => (f.seq, f.payload, true)) ∧
          (s.x15Host = false → u.retq = [] ∧ u.hostOut = s.hostOut ++ s.retq))) ∧
  (∀ s : State, (hlkState s ≠ hlkUp → exec .hlkRetrain s = .next s) ∧
    (hlkState s = hlkUp → ∃ u, exec .hlkRetrain s = .next u ∧ hlkState u = hlkRetrain ∧ u.hlk.retrain = true ∧ u.hlk.phase = phEq ∧
      u.hlk.rate40 = both s s.hlk.farRates ∧ (u.link pfl).buf = (s.link pfl).buf ∧ (u.link pfl).next = (s.link pfl).next ∧
      (∀ l : Fin 8, u.bit (aHlkLane l) 0 = false) ∧ u.fld aHlkErr1 15 8 = min (s.fld aHlkErr1 15 8 + 1) 255 ∧
      u.reports = s.reports ++ [corrected 27 0x38 0] ∧ Keeps s u (aHlkState :: aHlkErr1 :: lanes)) ∧
    (hlkState s ≠ hlkRetrain → exec .hlkRetrainTimeout s = .next s) ∧
    (hlkState s = hlkRetrain → 2 ≤ s.hlk.fails → exec .hlkRetrainTimeout s = exec (.hostLinkReset .retrains) s) ∧
    (hlkState s = hlkRetrain → s.hlk.fails < 2 → ∃ u, exec .hlkRetrainTimeout s = .next u ∧ u.hlk.fails = s.hlk.fails + 1 ∧
      u.hlk.phase = phEq ∧ u.fld aHlkErr1 15 8 = min (s.fld aHlkErr1 15 8 + 1) 255 ∧
      u.reports = s.reports ++ [corrected 27 0x38 0] ∧ Keeps s u [aHlkErr1]) ∧
    ((hlkState s = hlkUp ∨ hlkState s = hlkRetrain) → s.bit aHlkState 3 = false → exec .ksyncLoss s = exec (.hostLinkReset .noKsync) s) ∧
    ((hlkState s ≠ hlkUp ∧ hlkState s ≠ hlkRetrain) ∨ s.bit aHlkState 3 = true → exec .ksyncLoss s = .next s)) ∧
  (∀ (c : HlkCause) (s : State), (hlkState s = 0 → exec (.hostLinkReset c) s = .next s) ∧
    (hlkState s ≠ 0 → ∃ u, exec (.hostLinkReset c) s = .next u ∧ hlkState u = hlkDetect ∧ u.fld aHlkState 19 16 = hlkCauseCode c ∧
      (∀ l : Fin 8, u.bit (aHlkLane l) 0 = false) ∧ (u.link pfl).next = 0 ∧ (u.link pfl).buf = [] ∧
      u.rd aHlkSession = s.rd aHlkSession + 1 ∧ u.fld aHlkErr1 7 0 = min (s.fld aHlkErr1 7 0 + 1) 255 ∧
      u.reports = s.reports ++ [contained 27 0x39 8 0 (hlkCauseCode c)] ∧
      (s.x15Host = false → u.hostOut = [] ∧ ∀ k : ChanId, u.rd (aHlkAccept k) = 0) ∧
      u.callers = s.callers ∧ u.cctx = s.cctx ∧ u.ctxs = s.ctxs ∧ u.mesh = s.mesh ∧
      Keeps s u ([aHlkState, aHlkErr1, aHlkSession, aHlkRetq] ++ lanes ++ (List.range 4).map aHlkAccept))) ∧
  (∀ (l : Fin 8) (seen : List (BitVec 18)) (s : State),
    let s₁ : State := { s with hlk := { s.hlk with aligned := s.hlk.aligned &&& ~~~(lane8 l) } }
    (syncsMissed seen = false → exec (.hlkLaneAlignLoss { lane := l, seen := seen }) s = .next s) ∧
    (syncsMissed seen = true → s.bit (aHlkLane l) 0 = true → exec (.hlkLaneAlignLoss { lane := l, seen := seen }) s = exec .hlkRetrain s₁) ∧
    (syncsMissed seen = true → s.bit (aHlkLane l) 0 = false → exec (.hlkLaneAlignLoss { lane := l, seen := seen }) s = .next s₁)) ∧
  (∀ s : State, (hlkState s ≠ hlkUp ∨ s.fld aHlkCfg 15 8 = 0 ∨ (s.x15Host = false ∧ s.hostOut ≠ []) → exec .idleEntry s = .next s) ∧
    (hlkState s = hlkUp → s.fld aHlkCfg 15 8 ≠ 0 → nothingToSend s = true → 
      exec .idleEntry s = .next (pushControl (s.setBit aHlkState 4 true) [kEidle])) ∧
    (s.bit aHlkState 4 = true → exec .idleExit s = .next (pushControl (s.setBit aHlkState 4 false) exitBurst)) ∧
    (s.bit aHlkState 4 = false → exec .idleExit s = .next s) ∧
    (hlkState s = hlkUp → exec .rxElectricalIdle s = .next (s.setBit aHlkState 3 true)) ∧
    (hlkState s ≠ hlkUp → exec .rxElectricalIdle s = .next s) ∧
    ∀ (ls : List (Fin 8 × List (BitVec 18))) (skew : Nat),
      let s₁ := (s.setBit aHlkState 3 false).setPhy pfl { s.phy pfl with rxScr := [], words := [] }
      let aligned := skew ≤ 4000 ∧ ∀ l, l < pflLanes s → ∃ x ∈ ls, x.1.val = l ∧ burstAligns x.2 = true
      (aligned → exec (.rxExitBurst { lanes := ls, skewPs := skew }) s = .next s₁) ∧ (¬ aligned → exec (.rxExitBurst { lanes := ls, skewPs := skew }) s = exec .hlkRetrain s₁)) ∧
  (∀ (l : Fin 8) (e : Byte) (heard : List (BitVec 18)) (s : State),
    let bad := prefixErrors (heard.map (·.toNat))
    let efm := min e.toNat (countFigure
      ((SMap.get (fun _ => {}) s.hlk.prefixes l : SymbolCount).take (2 ^ 30) heard.length bad s.ns).errs.length)
    ∃ u, exec (.efmReport l e heard) s = .next u ∧ laneEfm u l = efm ∧ Keeps s u [aHlkLane l, aHlkErr0] ∧
      u.fld aHlkErr0 15 0 = min (s.fld aHlkErr0 15 0 + bad.length) 65535 ∧
      (hlkState s = hlkUp → s.bit (aHlkLane l) 0 = true → ∃ more, (u.link pfl).lctl = (s.link pfl).lctl ++ hlinkMsg 0 l efm :: more ∧
        (128 ≤ efm → SMap.get (fun _ => (0, 0, 0)) s.hlk.asked l = (0, 0, 0) → more = [])) ∧
      (hlkState s = hlkTrain → s.hlk.phase = phEq → s.hlk.eqDone.getLsbD l = false →
        let n := SMap.get (fun _ => 0) s.hlk.requests l
        let pass : BitVec 8 := if s.hlk.rate40 = true then u.hlk.pass40 else u.hlk.pass20
        (96 ≤ efm → u.hlk.eqDone.getLsbD l = true ∧ pass.getLsbD l = true) ∧
        (efm < 96 → 64 ≤ n → u.hlk.eqDone.getLsbD l = true ∧ pass.getLsbD l = false) ∧
        (efm < 96 → n < 64 → u.hlk.eqDone = s.hlk.eqDone ∧ SMap.get (fun _ => 0) u.hlk.requests l = n + 1))) ∧
  ∀ (l : Fin 8) (pre post : Fin 4) (s : State), ∃ u, exec (.tapRequest l pre post) s = .next u ∧ taps s u l pre post ∧
    Keeps s u [aHlkLane l]

/-! ### Start, resets, image and attestation (R440 to R472) -/

/-- Starts and resets (R440 to R472). Between 100 ns and 1 µs a free value decides of RST_N (log entry 2). -/
def Obligations.StartsAndResets : Prop :=
  let off (u : State) : Prop := ∀ d : Fin 20, domOn u d = false
  let kept (s u : State) : Prop := ∀ pa, u.byte pa =
    if pa < 0x20000000000 ∧ (s.boot.kept.getLsbD (pa / 0x1000000000) = true ∨ memState s (pa / 0x1000000000) = memInService)
    then s.byte pa else 0
  let outside (s u : State) : Prop := u.flash = s.flash ∧ u.eeprom = s.eeprom ∧ u.callers = [] ∧ u.hostOut = []
  let at_ (u : State) (phase st : Nat) : Prop := u.boot.phase = phase ∧ bootState u = st
  let programmed (s : State) (w : List (BitVec 25 × Byte)) (a : Nat) : Byte :=
    if s.boot.island = true ∧ xspiSelected s = true then SMap.get flashDefault s.flash a
    else ((w.filter fun x => x.1.toNat = a).getLast?.map (·.2)).getD (SMap.get flashDefault s.flash a)
  (∀ s : State, exec .standbyPowerGood s =
    .next { s with boot := { s.boot with island := true, startFrom := s.clock + 10000000000 } }) ∧
  (∀ (ms : Nat) (s : State), (ms < 100 → exec (.standbyPowerLoss ms) s = .next s) ∧
    (100 ≤ ms → ∃ u, exec (.standbyPowerLoss ms) s = .next u ∧ outside s u ∧ u.boot.island = false ∧ u.mem = [] ∧
      (∀ a, a ∉ aHlkSession :: ((List.range 16).map aLnkSession ++ (List.range 16).map aEyeState) → u.rd a = State.reset.rd a) ∧
      u.rd aHlkSession = s.rd aHlkSession ∧
      ∀ x : XPort, u.rd (aLnkSession x) = s.rd (aLnkSession x) ∧ u.bit (aEyeState x) 3 = s.bit (aEyeState x) 3)) ∧
  (∀ (g : Bool) (puf : List Byte) (w : List (BitVec 25 × Byte)) (s : State),
    (s.boot.island = false ∨ bootState s ≠ 0 ∨ s.clock < s.boot.startFrom → ∃ u, exec (.start g { puf := puf, flashed := w }) s = .next u ∧ u = { s with flash := u.flash } ∧
      ∀ a, SMap.get flashDefault u.flash a = programmed s w a) ∧
    (s.boot.island = true → bootState s = 0 → s.boot.startFrom ≤ s.clock → ∃ u, exec (.start g { puf := puf, flashed := w }) s = .next u ∧ at_ u 1 1 ∧ u.pins.xspiReset = some s.clock ∧
      (∀ a, SMap.get flashDefault u.flash a = programmed s w a) ∧ u.boot.guest = g ∧ u.boot.puf = puf ∧
      u.boot.key = none ∧ u.bit aHubBoot 16 = s.boot.warm ∧ Keeps s u [aHubBoot, aHubFwver, aHubImggen])) ∧
  (∀ (f : PhaseFound) (s : State),
    (s.boot.phase = 0 ∨ bootState s ≠ phaseState s.boot.phase → exec (.startPhaseDone f) s = .next s) ∧
    (at_ s 1 1 → s.pins.xspiReset.isSome = true → exec (.startPhaseDone f) s = .next s) ∧
    (at_ s 1 1 → s.pins.xspiReset = none → let c := chooseSlot s.flash f.readFail
      ∃ u, exec (.startPhaseDone f) s = .next u ∧ u.fld aHubBoot 27 24 = c.codeA ∧ u.fld aHubBoot 23 20 = c.codeB ∧
        u.bit aHubBoot 18 = c.fallback ∧ domOn u 16 = true ∧ u.beat = 0 ∧ hlkState u = hlkDetect ∧ u.boot.key = deriveKey s ∧
        u.bit aHubBoot 17 = (deriveKey s).isSome ∧
        match c.slot with
        | none => at_ u 0 bootNoImage
        | some b => at_ u 2 2 ∧ u.bit aHubBoot 19 = b) ∧
    (at_ s 2 2 → fatalLatched s = false → ∃ u, exec (.startPhaseDone f) s = .next u ∧ at_ u 3 2 ∧
      domOn u 17 = true ∧ domOn u 18 = true ∧ domOn u 19 = true) ∧
    (at_ s 3 2 → ∃ u, exec (.startPhaseDone f) s = .next u ∧ at_ u 4 2 ∧ (∀ k : Fin 4, domOn u (12 + k) = true) ∧
      ∀ st : StackId, memState u st = memTraining) ∧
    (at_ s 4 2 → ∃ u, exec (.startPhaseDone f) s = .next u ∧ at_ u 5 2 ∧
      (∀ k : Fin 4, f.baseMask.getLsbD k = true → domOn u (12 + k) = false) ∧
      ∀ d : DieId, domOn u (12 + d.val / 3) = true → domOn u d = true ∧ tdState u d = tdInit) ∧
    (at_ s 5 2 → ∃ u, exec (.startPhaseDone f) s = .next u ∧ at_ u 6 3 ∧
      ∀ d : DieId, domOn s d = true → if f.dieMask.getLsbD d = true then domOn u d = false ∧ tdState u d = tdOff
        else tdState s d = tdInit → tdState u d = tdServe) ∧
    (at_ s 6 3 → ∃ u, exec (.startPhaseDone f) s = .next u ∧ at_ u 7 4 ∧
      ∀ p : PortId, rngState s p = rngSearch → rngState u p =
        if 116 ≤ p.val ∧ p.val < 120 then rngTest else if 128 ≤ p.val ∧ rngState u (p.val - 12) = rngTest then rngSearch else rngMargin) ∧
    (at_ s 7 4 → ∃ u, exec (.startPhaseDone f) s = .next u ∧ at_ u 8 5 ∧
      ∀ d : DieId, tdState u d = tdServe → portsUp u d = true ∧ u.bit aHubInv d = true) ∧
    (at_ s 8 5 → let over_ := s.boot.phaseAt + s.image.extWait * 1000000000 ≤ s.clock ∨
          ∀ x, x < 14 → s.bit aMmCfg (8 + (ownModule s + x / 2 + 1) % 8) = true → lnkState s x = lnkUp
      (alignState s = 1 ∨ ¬over_ → exec (.startPhaseDone f) s = .next s) ∧
      (alignState s ≠ 1 → over_ → ∃ u, exec (.startPhaseDone f) s = .next u ∧ at_ u 0 bootReady ∧ lgtBusy u = true ∧
        u.fld aHubBoot 15 0 = min 65535 ((s.clock - s.boot.began) / 1000000000) ∧
        Keeps s u [aHubBoot, aHubLgt]))) ∧
  (∀ (ns : Nat) (s : State), (s.boot.island = false ∨ ns < 100 → exec (.rstNAssert ns) s = .next s) ∧
    (s.boot.island = true → 1000 ≤ ns → ∃ u, exec (.rstNAssert ns) s = .next u ∧ at_ u 0 0 ∧ u.boot.warm = true ∧ u.boot.startFrom = s.clock + 1000000000 ∧ off u ∧ kept s u ∧
      outside s u) ∧
    (s.boot.island = true → 100 ≤ ns → ns < 1000 →
      exec (.rstNAssert ns) s = .next s.tookFree ∨ exec (.rstNAssert ns) s = exec (.rstNAssert 1000) s.tookFree)) ∧
  (∀ s : State, (bootState s ≠ bootQuiescing → exec .quiesced s = .next s) ∧
    (bootState s = bootQuiescing → ∃ u, exec .quiesced s = .next u ∧ at_ u 0 bootQuiesced ∧ off u ∧ kept s u ∧ outside s u) ∧
    ∃ u, exec .mainPowerLoss s = .next u ∧ at_ u 0 0 ∧ u.boot.warm = false ∧ u.boot.zeroDue = true ∧ off u ∧ u.mem = [] ∧ outside s u) ∧
  (∀ (err : Fin 4) (s : State), (s.boot.flashOp = none → exec (.flashDone err) s = .next s) ∧
    ∀ o, s.boot.flashOp = some o → ∃ u, exec (.flashDone err) s = .next u ∧ u.boot.flashOp = none ∧ u.bit aHubFlashctl 30 = false ∧
      u.fld aHubFlashctl 27 24 = err ∧ Keeps s u (aHubFlashctl :: (List.range 64).map aHubFlashbuf) ∧
      (o.op = 0 → u.flash = s.flash ∧ (err = 0 → ∀ i : Fin 64, (u.rd (aHubFlashbuf i)).toNat =
        fieldAt (flashBytes s.flash o.addr 256) (4 * i) 4)) ∧
      (o.op = 1 → err = 0 → ∀ a, SMap.get flashDefault u.flash a = if q : o.addr ≤ a ∧ a - o.addr < o.buf.length then o.buf[a - o.addr]
        else SMap.get flashDefault s.flash a) ∧
      (o.op = 2 → err = 0 → ∀ a, SMap.get flashDefault u.flash a = if o.addr ≤ a ∧ a < o.addr + 0x10000 then 0xFF
        else SMap.get flashDefault s.flash a)) ∧
  ∀ s : State, (s.bit aHubAttctl 30 = false → exec .attestDone s = .next s) ∧
    (s.bit aHubAttctl 30 = true → ∃ u, exec .attestDone s = .next u ∧ u.bit aHubAttctl 30 = false ∧
      u.bit aHubAttctl 29 = decide (nonceWords s = s.boot.attNonce) ∧ Keeps s u (aHubAttctl :: (List.range 128).map aHubAttrep) ∧
      ∀ k, s.boot.key = some k → ∀ i : Fin 128, (u.rd (aHubAttrep i)).toNat = fieldAt (attReport s k) (4 * i) 4)

/-- R464, whole. -/
def Obligations.FatalLatchOutlivesResets : Prop :=
  let same (s u : State) : Prop := u.rd aFltStatus2 = s.rd aFltStatus2 ∧ u.rd aFltStatus3 = s.rd aFltStatus3
  let attests (a : Nat) : Prop := a = aHubAttctl ∨ (0xE80 ≤ a ∧ a < 0xEB0)
  let faulted (s : State) (h : HostHdr) : Prop := hostOpen s = true ∧ h.x15 = s.x15Host ∧ h.rsvd = 0 ∧ h.chField = h.ch ∧
    ctxPrivileged s h.ch = false ∧ bootState s = bootFaulted
  (∀ (i : Instr) (s : State), (∃ ns, i = .rstNAssert ns) ∨ i = .mainPowerLoss ∨ i = .quiesced →
    ∃ u, exec i s = .next u ∧ same s u) ∧
  (∀ (h : HostHdr) (v : Word) (s : State), HostAdmits s h → getF v 31 24 = 0xA5 → v.getLsbD 0 = true →
    ∃ u, exec (.hubRstWarm h v) s = .next u ∧ same s u ∧ bootState u = 0 ∧ u.boot.warm = true) ∧
  (∀ (ms : Nat) (s : State), 100 ≤ ms → ∃ u, exec (.standbyPowerLoss ms) s = .next u ∧ u.rd aFltStatus2 = 0 ∧ u.rd aFltStatus3 = 0) ∧
  (∀ (f : PhaseFound) (s : State), fatalLatched s = true →
    (s.boot.phase = 1 → bootState s = 1 → s.pins.xspiReset = none → ∃ u, exec (.startPhaseDone f) s = .next u ∧ same s u ∧
      ((u.boot.phase = 2 ∧ bootState u = 2) ∨ (u.boot.phase = 0 ∧ bootState u = bootNoImage))) ∧
    (s.boot.phase = 2 → bootState s = 2 → ∃ u, exec (.startPhaseDone f) s = .next u ∧ same s u ∧ u.boot.phase = 0 ∧
      bootState u = bootFaulted ∧ Keeps s u [aHubBoot] ∧ exec (.startPhaseDone f) u = .next u)) ∧
  (∀ (h : HostHdr) (addr : Word) (r : RegRow) (s : State), faulted s h → addr.toNat % 4 = 0 → regAt addr.toNat = some r →
    regOn s r addr.toNat = true → latchOf s (.host h.ch) = none →
    ∃ u, AnswersOk (.regRd h addr) s u h kRegRd 0 ((rcView (accepted s h) r addr.toNat (regView (accepted s h) addr.toNat)).zeroExtend 48) []) ∧
  (∀ (h : HostHdr) (j : Fin 12) (v : Word) (s : State), faulted s h →
    ∃ u, AnswersOk (.hubNonce h j v) s u h kRegWr 0 0 [] ∧ u.rd (aHubNonce j) = v ∧ u.bit aHubAttctl 29 = false) ∧
  (∀ (h : HostHdr) (s : State), faulted s h → attestOk s = true →
    ∃ u, AnswersOk (.attestGo h) s u h kRegWr 0 0 [] ∧ u.bit aHubAttctl 30 = true ∧ u.boot.attNonce = nonceWords s) ∧
  (∀ (h : HostHdr) (a v : Word) (s : State), faulted s h → ¬attests a.toNat →
    ∃ u : State, exec (.regWr h a v) s = .next (u.complete (keyOf h) kRegWr 0 .state 0 []) ∧ Keeps (accepted s h) u []) ∧
  (∀ (h : HostHdr) (a : Word) (n : Nat) (data : List Byte) (s : State), faulted s h → data.length = 4 * n → 1 ≤ n → n ≤ 512 →
    (∀ j, j < n → ¬attests (a.toNat + 4 * j)) → ∃ u : State,
      exec (.regWrb h a data) s = .next (u.complete (keyOf h) kRegWrb 0 .state (BitVec.ofNat 48 a.toNat) []) ∧
        Keeps (accepted s h) u []) ∧
  ∀ (i : Instr) (h : HostHdr) (k : HostKind) (s : State), hostPart i = some (h, k) → faulted s h → (∀ a, i ≠ .regRd h a) →
    (∀ a v, i ≠ .regWr h a v) → (∀ a d, i ≠ .regWrb h a d) → (∀ j v, i ≠ .hubNonce h j v) → i ≠ .attestGo h →
    ∃ kind, exec i s = .next ((accepted s h).complete (keyOf h) kind k.ctxOf .state 0 [])

/-! ### Faults (R473 to R490) -/

/-- FAULT_EVENT, ESCALATION and the ERR_N pulses (R473 to R487). -/
def Obligations.FaultCollector : Prop :=
  let fe : List Nat := [aFltFe0, aFltFe1, aFltFe2, aFltFe3, aFltFe4, aFltFe5]
  let entry (i : Nat) : List Nat := [aFltE0 i, aFltE1 i, aFltE2 i, aFltE3 i, aFltE4 i]
  (∀ (r : FaultReport) (s : State), hubOn s = true → ∃ u, exec (.faultEvent r) s = .next u ∧ KeepsMemory s u ∧
    let i := histNext s
    u.rd64 (aFltE0 i) = s.beat ∧ u.rd (aFltE2 i) = eventId r ∧ u.rd (aFltE3 i) = syndrome r ∧ u.rd (aFltE4 i) = histSeq s ∧
    u.fld aFltHqstat 3 0 = (i + 1) % 16 ∧ (∀ j, j < 16 → j ≠ i → ∀ a ∈ entry j, u.rd a = s.rd a) ∧
    u.fld aFltHqstat 31 20 = (if s.bit (aFltE2 i) 31 = true ∧ (s.rd aFltHqread).toNat < (s.rd (aFltE4 i)).toNat
      then min (s.fld aFltHqstat 31 20 + 1) 4095 else s.fld aFltHqstat 31 20) ∧
    (if s.bit aFltFe1 31 = true ∨ (r.cls = 0 ∧ s.bit aFltCfg 31 = false) then ∀ a ∈ fe, u.rd a = s.rd a
      else u.bit aFltFe1 31 = true ∧ u.rd aFltFe0 = r.addr.truncate 32 ∧ u.rd64 aFltFe2 = s.beat ∧ u.rd aFltFe5 = syndrome r) ∧
    (s.bit aFltErrn r.cls.val = true → errLow s = false → errGapOver s = true → s.pins.errPulse = false →
      u.pins.errPulse = true ∧ errLow u = true) ∧
    (r.cls = 0 → u.bit aFltStatus0 r.source = true ∧ u.callers = s.callers ∧ u.flt.timers = s.flt.timers ∧
      Keeps s u ([aFltStatus0, aFltHqstat, aFltErrn, aFltInj 8, aFltInj 9] ++ entry i ++ fe)) ∧
    (r.cls = 1 → u.bit aFltStatus1 r.source = true ∧ u.callers = s.callers ∧
      Keeps s u ([aFltStatus1, aFltHqstat, aFltErrn, aFltInj 8, aFltInj 9, aHlkRetq] ++ entry i ++ fe) ∧
      (fatalLatched s = true → u.flt.timers = s.flt.timers) ∧
      (fatalLatched s = false → ∃ t, timerOf u r.source = some t ∧ (r.subtype, r.inst) ∈ t.scopes ∧
        (timerOf s r.source = none → t.code = r.event ∧ t.left = s.fld aFltCfg 9 0 * 10000000) ∧
        ∀ t₀, timerOf s r.source = some t₀ → t.code = t₀.code ∧ t.left = t₀.left ∧ ∀ x ∈ t₀.scopes, x ∈ t.scopes)) ∧
    (r.cls = 2 → u.bit aFltStatus2 r.source = true ∧ fatalLatched u = true ∧
      (fatalLatched s = true → u.rd aFltStatus3 = s.rd aFltStatus3 ∧ u.callers = s.callers ∧ bootState u = bootState s) ∧
      (fatalLatched s = false → bootState u = bootFaulted ∧ u.boot.phase = 0 ∧ errLow u = true ∧ u.flt.timers = [] ∧ u.dbg.dump = none ∧
        (s.rd aFltStatus3 = 0 → u.fld aFltStatus3 20 16 = r.source ∧ u.fld aFltStatus3 15 8 = r.event.toNat ∧ u.bit aFltStatus3 29 = false) ∧
        (∀ d k c, runs s d k c = true → (u.caller d k).st = .held ∧ (u.caller d k).run = none ∧ (u.cc d k c).held = true) ∧
        (∀ st : StackId, memState s st = memInService → memState u st = memSelfRefresh ∧ u.bit aHubMeminv st = false) ∧
        (∀ x : XPort, eyeState u x ≠ eyeLit ∧ eyeState u x ≠ eyeArmed) ∧ (prtState s = prtLead → prtState u = prtFenced)))) ∧
  (∀ (r : FaultReport) (s : State), hubOn s = false → (r.cls ≠ 2 → exec (.faultEvent r) s = .next s) ∧
    (r.cls = 2 → ∃ u, exec (.faultEvent r) s = .next u ∧ u.bit aFltStatus2 r.source = true ∧ fatalLatched u = true ∧
      Keeps s u [aFltStatus2, aFltStatus3])) ∧
  (∀ (src : Fin 32) (s : State),
    ((∀ t, timerOf s src = some t → t.left ≠ 0) → exec (.escalation src) s = .next s) ∧
    (∀ t, timerOf s src = some t → t.left = 0 → ∃ u, exec (.escalation src) s = .next u ∧ fatalLatched u = true ∧
      (∀ (i : Fin 32) (e : EscTimer), timerOf s i = some e → e.left = 0 → u.bit aFltStatus2 i = true) ∧
      (hubOn s = true → fatalLatched s = false → bootState u = bootFaulted ∧ u.flt.timers = []) ∧
      ∀ (i : Fin 32) (e : EscTimer), timerOf s i = some e → e.left = 0 → (∀ j : Fin 32, j < i → ∀ e', timerOf s j = some e' → e'.left ≠ 0) →
        s.rd aFltStatus3 = 0 → u.fld aFltStatus3 20 16 = i ∧ u.fld aFltStatus3 15 8 = e.code.toNat ∧ u.bit aFltStatus3 29 = true)) ∧
  ∀ s : State, (s.pins.errPulse = false → exec .errnPulseEnd s = .next s) ∧
    (s.pins.errPulse = true → ∃ u, exec .errnPulseEnd s = .next u ∧ u.pins.errPulse = false ∧ Keeps s u [aFltErrn] ∧
      (s.bit aFltErrn 31 = true ∨ fatalLatched s = true → errLow u = errLow s) ∧
      (s.bit aFltErrn 31 = false → fatalLatched s = false → errLow u = false ∧ u.pins.errReleased = some s.stampNs)) ∧
    (s.pins.errDeferred = true ∧ errLow s = false ∧ errGapOver s = true → ∃ u, exec .errNDeferredPulse s = .next u ∧ errLow u = true ∧
      u.pins.errPulse = true ∧ u.pins.errDeferred = false ∧ Keeps s u [aFltErrn]) ∧
    (s.pins.errDeferred = false ∨ errLow s = true ∨ errGapOver s = false → exec .errNDeferredPulse s = .next s)

/-! ### Sensors, throttle, power and dies (R497 to R515) -/

/-- SENSOR_UPDATE to DIE_RESTORE_DONE (R497 to R515). -/
def Obligations.ThermalAndPower : Prop :=
  let breaks (s u : State) (i : Fin 264) (c : SensorCause) : Prop := sensorBroken u i = true ∧ u.fld (aTpSens i) 30 28 = causeCode c ∧
    u.bit (aTpBroken (i.val / 32)) (i.val % 32) = true ∧ Keeps s u [aTpSens i, aTpBroken (i.val / 32)] ∧
    u.reports = s.reports ++ [contained 28 0x40 9 (sensorDomain i + 32 * i.val) 0]
  let retired (u : State) (d : DieId) (code err : Nat) : Prop := tdState u d = tdRetired ∧ u.fld (aTpDom d) 2 0 = code ∧
    u.fld aTpTdctl 27 24 = err ∧ u.dieOp = none
  let event (s : State) (i : Fin 264) : Prop := sensorBroken s i = true ∨ domOn s (sensorDomain i) = false
  (∀ (i : Fin 264) (a b : Int) (s : State), (domOn s (sensorDomain i) = false → exec (.sensorUpdate i a b) s = .next s) ∧
    (domOn s (sensorDomain i) = true → ∃ u, exec (.sensorUpdate i a b) s = .next u ∧ u.fld (aTpSens i) 15 0 = readingBits (max a b) ∧
      (-640 ≤ max a b ∧ max a b ≤ 2400 ∨ sensorBroken s i = true → Keeps s u [aTpSens i] ∧ u.reports = s.reports ∧
        sensorBroken u i = sensorBroken s i) ∧
      ((max a b < -640 ∨ 2400 < max a b) → sensorBroken s i = false → breaks s u i .range))) ∧
  (∀ (i : Fin 264) (c : SensorCause) (s : State), (event s i → exec (.sensorBroken i c) s = .next s) ∧
    (¬event s i → ∃ u, exec (.sensorBroken i c) s = .next u ∧ breaks s u i c)) ∧
  (∀ (i : Fin 264) (pass agree : Bool) (s : State), (domOn s (sensorDomain i) = false → exec (.sensorSelfcheck i pass agree) s = .next s) ∧
    (domOn s (sensorDomain i) = true → pass = false → exec (.sensorSelfcheck i pass agree) s = exec (.sensorBroken i .selfcheck) s) ∧
    (pass = true → agree = false ∨ i ∉ s.recheck → exec (.sensorSelfcheck i pass agree) s = .next s) ∧
    (domOn s (sensorDomain i) = true → pass = true → agree = true → i ∈ s.recheck → ∃ u, exec (.sensorSelfcheck i pass agree) s = .next u ∧
      sensorBroken u i = false ∧ u.bit (aTpBroken (i.val / 32)) (i.val % 32) = false ∧ i ∉ u.recheck ∧
      Keeps s u [aTpSens i, aTpBroken (i.val / 32)])) ∧
  (∀ (i : Fin 264) (s : State), (event s i → exec (.thermalTrip i) s = .next s) ∧
    (¬event s i → ∃ u, exec (.thermalTrip i) s = .next u ∧ (∀ d : Fin 20, domOn u d = false) ∧ u.mem = [] ∧ u.callers = [] ∧
      u.pins.thermtrip = true ∧ u.bit aFltStatus2 28 = true ∧ u.bit aFltStatus3 30 = true ∧ fatalLatched u = true ∧
      bootState u = bootFaulted)) ∧
  (∀ (binds : BitVec 12) (rates : List Nat) (s : State), ∃ u, exec (.throttleEval binds rates) s = .next u ∧ KeepsMemory s u ∧
    ∀ d : DieId, if domOn s d = true then
      let t := governedTemp s d
      let target : Int := 16 * (s.fld aTpCfg 6 0 : Nat)
      let was := s.fld (aTpDom d) 20 16
      let level := u.fld (aTpDom d) 20 16
      (t > target → level = max (was - 1) 4) ∧ (t < target - 48 → level = min (was + 1) 16) ∧
        (target - 48 ≤ t → t ≤ target → level = was) ∧ u.bit (aTpDom d) 7 = decide (level < 16) ∧
        u.bit (aTdState d) 7 = binds.getLsbD d ∧ u.fld (aTdRate d) 15 0 = min ((rates[d.val]?).getD 0) 65535
      else u.rd (aTpDom d) = s.rd (aTpDom d) ∧ u.rd (aTdState d) = s.rd (aTdState d) ∧ u.rd (aTdRate d) = s.rd (aTdRate d)) ∧
  (∀ (power peak10 volt : Nat) (s : State), ∃ u, exec (.powerEval power peak10 volt) s = .next u ∧ KeepsMemory s u ∧
    let was := s.fld (aTpDom 0) 12 8
    let limit := s.fld aTpCfg 28 16
    let level := if limit < power then max (was - 1) 4 else if power + 200 < limit then min (was + 1) 16 else was
    (∀ d : DieId, u.fld (aTpDom d) 12 8 = level) ∧ u.fld aTpInput 31 16 = min power 65535 ∧ u.fld aTpInput 15 0 = min volt 65535 ∧
      u.fld aTpPeak 31 16 = max (s.fld aTpPeak 31 16) (min peak10 65535) ∧
      u.fld aTpPeak 15 0 = if level < was then min (s.fld aTpPeak 15 0 + 1) 65535 else s.fld aTpPeak 15 0) ∧
  (∀ s : State, (∃ u, exec .inputVoltageFault s = .next u ∧ Keeps s u [] ∧ u.reports = s.reports ++ [fatal 28 0x42 31]) ∧
    (hubOn s = true → ∃ u, exec .refclkFault s = .next u ∧ Keeps s u [] ∧ u.reports = s.reports ++ [fatal 28 0x42 30]) ∧
    (hubOn s = false → exec .refclkFault s = .next s)) ∧
  (∀ (dom : Fin 20) (s : State), (domOn s dom = false → exec (.stageFault dom) s = .next s) ∧
    (domOn s dom = true → ∃ u, exec (.stageFault dom) s = .next u ∧ u.fld (aTpDom dom) 2 0 = 3 ∧
      (∀ d : DieId, dom.val = d.val ∨ dom.val = 12 + d.val / 3 → domOn u d = false ∧ u.bit aHubInv d = false) ∧
      (dom.val < 12 → partEvent dom dom 1 ∈ u.reports ∧
        ∀ pa, pa < sramPa dom 0 ∨ sramPa dom 0 + 0x8000000 ≤ pa → u.byte pa = s.byte pa) ∧
      (12 ≤ dom.val → dom.val < 16 → partEvent dom (dom.val - 12) 1 ∈ u.reports ∧
        ∀ st : StackId, st.val / 8 = dom.val - 12 → u.bit aHubMeminv st = false ∧ ∀ off, off < 0x900000000 → u.byte (stackPa st off) = 0) ∧
      (dom.val = 16 → (∀ d : Fin 20, domOn u d = false) ∧ fatalLatched u = true ∧ bootState u = bootFaulted) ∧
      (17 ≤ dom.val → fatal 28 0x42 dom ∈ u.reports ∧ ∀ k : Fin 4, dom.val = 19 ∨ dom.val = 17 + k.val / 2 → domOn u (12 + k) = false))) ∧
  (∀ (d : DieId) (s : State), (∀ o, s.dieOp = some o → o.die ≠ d ∨ o.restore = true ∨ o.draining = false ∨ drained s d = false) →
    exec (.retireDone d) s = .next s) ∧
  (∀ (d : DieId) (o : DieOp) (s : State), s.dieOp = some o → o.die = d → o.restore = false → o.draining = true → drained s d = true →
    ∃ u, exec (.retireDone d) s = .next u ∧ retired u d 0 (s.fld aTpTdctl 27 24) ∧ u.bit aHubInv d = false) ∧
  ∀ (d : DieId) (out : RestoreOutcome) (s : State),
    ((∀ o, s.dieOp = some o → o.die ≠ d ∨ o.restore = false) → exec (.dieRestoreDone d out) s = .next s) ∧
    ∀ o, s.dieOp = some o → o.die = d → o.restore = true → ∃ u, exec (.dieRestoreDone d out) s = .next u ∧
      (out = .domainFault → retired u d 3 3 ∧ partEvent d d 1 ∈ u.reports) ∧ (out = .portFailed → retired u d 0 2) ∧
      (out = .allUp → ((∀ j, j < 8 → rngState s (8 * d + j) = rngUp) →
          tdState u d = tdServe ∧ u.bit aHubInv d = true ∧ portsUp u d = true ∧ u.dieOp = none) ∧
        ((∃ j, j < 8 ∧ rngState s (8 * d + j) = rngDown) → retired u d 0 2))

/-! ### Debug and I3C (R523 to R540, R558, R559) -/

/-- Debug runs and the I3C target (R531 to R540, R558, R559, R582). -/
def Obligations.DebugAndI3C : Prop :=
  let inj : List Nat := [aFltInj 0, aFltInj 1, aFltInj 2, aFltInj 3]
  let places (s : State) (x : ExportLine) : Nat := s.places6 (x.die.val / 3)
  let refused (s u : State) (a : Word) : Prop := Keeps s u [] ∧
    u.reports = s.reports ++ [{ accessError 10 with space := 4, addr := BitVec.ofNat 48 a.toNat }]
  (∀ (d : DieId) (s : State), let buf := (s.reel d).buf
    s.bit (aDbgReelctl d) 30 = false → s.now.landed = [] → (∀ e ∈ buf, e.1 < 65536 ∧ e.2.length = 16) → (buf.map (·.1)).Nodup →
      ∃ u, exec (.reelFlush d) s = .next u ∧ (∀ a, a ∉ inj → u.rd a = s.rd a) ∧ u.callers = s.callers ∧
        (∀ e ∈ buf, u.bytes (sramPa d (reelBase + 16 * e.1)) 16 = e.2) ∧
        (∀ pa, (∀ e ∈ buf, ¬(sramPa d (reelBase + 128 * (e.1 / 8)) ≤ pa ∧ pa < sramPa d (reelBase + 128 * (e.1 / 8)) + 128)) →
          u.byte pa = s.byte pa) ∧
        ∀ e, e ∈ (u.reel d).buf ↔ e ∈ buf ∧ ∀ f ∈ buf, f.1 / 8 = e.1 / 8 → f.1 % 8 ≠ 7) ∧
  (∀ s : State, (s.dbg.exportBuf = [] ∨ hostUp s = false → exec .traceExport s = .next s) ∧
    (∀ x xs, s.dbg.exportBuf = x :: xs → places s x = 0 → exec .traceExport s = .next s) ∧
    ∀ x xs, s.dbg.exportBuf = x :: xs → hostUp s = true → places s x ≠ 0 → ∃ (u : State) (ls : List ExportLine) (lost : Nat) (q : Sent),
      exec .traceExport s = .next u ∧ (x :: xs) = ls ++ u.dbg.exportBuf ∧ 1 ≤ ls.length ∧ ls.length ≤ min 8 (places s x) ∧ places u x = places s x - ls.length ∧ (∀ l ∈ ls, l.die = x.die) ∧
        (∀ (n : Nat) (l : ExportLine), ls[n]? = some l → l.idx % 65536 = (x.idx + 8 * n) % 65536) ∧ u.hostOut = s.hostOut ++ [q] ∧
        q.msg = .trace x.die lost x.idx (ls.flatMap (·.data)) ∧ lost = min 255 (SMap.get (fun _ => 0) s.dbg.exportDrop x.die) ∧
        u.fld aDbgExpstat 15 0 = min (s.fld aDbgExpstat 15 0 + ls.length) 65535 ∧ Keeps s u [aDbgExpstat]) ∧
  (∀ (d : DieId) (k : CallerId) (s : State),
    ((s.caller d k).ctx = none ∨ watchdogDue s d k = false → exec (.watchdogExpiry d k) s = .next s) ∧
    ∀ c, (s.caller d k).ctx = some c → watchdogDue s d k = true → ∃ u, exec (.watchdogExpiry d k) s = .next u ∧
      u.dbg.expired = s.dbg.expired ++ [callerNo d k] ∧ u.callers = s.callers ∧ u.cctx = s.cctx ∧ u.ctxs = s.ctxs ∧
      u.reports = s.reports ++ [ctxEvent d k c 0x0A 0] ∧ watchdogDue u d k = false ∧
      (s.bit aDbgDumpctl 27 = false ∨ dumpArmed s = false ∨ dumpBusy s = true → Keeps s u [] ∧ u.dbg.dump = s.dbg.dump) ∧
      (s.bit aDbgDumpctl 27 = true → dumpArmed s = true → dumpBusy s = false → dumpBusy u = true ∧ dumpArmed u = true ∧
        ∃ o, u.dbg.dump = some o ∧ o.cause = 1 ∧ o.die = d ∧ o.caller = k ∧ o.first = s.beat)) ∧
  (∀ s : State, (s.dbg.dump = none → exec .dumpCommit s = .next s ∧ exec .dumpStop s = .next s) ∧
    ∀ o, s.dbg.dump = some o →
      (∃ u, exec .dumpStop s = .next u ∧ u.dbg.dump = none ∧ dumpBusy u = false ∧ u.fld aDbgDumpctl 26 24 = 2 ∧
        dumpArmed u = dumpArmed s ∧ Keeps s u [aDbgDumpctl]) ∧
      ((writeDump s o).2 = false → exec .dumpCommit s = exec .dumpStop s) ∧
      ((writeDump s o).2 = true → ∃ u, exec .dumpCommit s = .next u ∧ u.dbg.dump = none ∧ dumpBusy u = false ∧ dumpArmed u = false ∧
        u.callers = s.callers ∧ (∀ a, a ∉ [aDbgDumpctl, aHlkRetq] ++ inj → u.rd a = s.rd a) ∧
        (o.base.toNat < 0x20000000000 → u.bytes o.base.toNat 4 = leBytes 4 0x444D5039 ∧
          u.bytes (o.base.toNat + 4092) 4 = leBytes 4 0x434F4D54 ∧ ∀ pa, pa < o.base.toNat → u.byte pa = s.byte pa) ∧
        (hostUp s = true → ∃ q : Sent, u.hostOut = s.hostOut ++ [q] ∧
          q.msg = .notify 0 3 none (BitVec.ofNat 56 (o.die.val + 256 * o.caller.val)) []))) ∧
  (∀ (a : Word) (s : State), (s.boot.island = true → exec (.i3cPointerWrite a) s = .next { s with pins := { s.pins with i3cPtr := a } }) ∧
    (s.boot.island = false → exec (.i3cPointerWrite a) s = .next s ∧ exec .i3cRead s = .next s ∧ ∀ v, exec (.i3cWrite a v) s = .next s) ∧
    (s.boot.island = true → s.pins.i3cPtr = a → a.toNat % 4 = 0 → i3cReads a.toNat = false → ∃ u, exec .i3cRead s = .next u ∧ refused s u a ∧
      u.pins.i3cOut = [0, 0, 0, 0, 1] ∧ u.pins.i3cPtr = a + 4) ∧
    (∀ r, s.boot.island = true → s.pins.i3cPtr = a → a.toNat % 4 = 0 → i3cReads a.toNat = true → regAt a.toNat = some r →
      regOn s r a.toNat = true → latchOf s .i3c = none → ∃ u, exec .i3cRead s = .next u ∧ KeepsMemory s u ∧
        u.pins.i3cOut = leBytes 4 (rcView s r a.toNat (regView s a.toNat)).toNat ++ [0] ∧ u.pins.i3cPtr = a + 4) ∧
    (∀ v, s.boot.island = true → i3cWrites a.toNat = none → ∃ u, exec (.i3cWrite a v) s = .next u ∧ refused s u a ∧
      u.pins.i3cPtr = a + 4)) ∧
  (∀ (v : Word) (s : State), s.boot.island = true → 3000 ≤ getF v 28 16 → getF v 28 16 ≤ 6000 → 70 ≤ s.fld aTpCfg 6 0 →
    s.fld aTpCfg 6 0 ≤ 110 → ∃ u, exec (.i3cWrite (BitVec.ofNat 32 aTpCfg) v) s = .next u ∧ u.fld aTpCfg 28 16 = getF v 28 16 ∧
      u.fld aTpCfg 6 0 = s.fld aTpCfg 6 0 ∧ Keeps s u [aTpCfg]) ∧
  ∀ (by_ : Option (BitVec 7)) (addr : BitVec 7) (s : State),
    (s.boot.island = true → by_ = none ∨ by_ = some 0x3A → exec (.dynamicAddressAssignment by_ addr) s =
      .next { s with pins := { s.pins with i3cAddr := some addr } }) ∧
    (s.boot.island = false ∨ (by_ ≠ none ∧ by_ ≠ some 0x3A) → exec (.dynamicAddressAssignment by_ addr) s = .next s)

/-! ### Rows that write one register -/

/-- Writes of the hub's and the guest's registers. The nonce of a release by GFW_CLOSE is free (log entry 2). -/
def Obligations.HubWrites : Prop :=
  let ok (i : Instr) (s u : State) (h : HostHdr) (regs : List Nat) : Prop := AnswersOk i s u h kRegWr 0 0 [] ∧ Keeps (accepted s h) u regs
  let denied (i : Instr) (s : State) (h : HostHdr) : Prop := ∃ u : State,
    exec i s = .next (u.complete (keyOf h) kRegWr 0 .access 0 []) ∧ Keeps (accepted s h) u [] ∧ u.callers = s.callers ∧ u.waiters = s.waiters
  let cfg (s : State) (o : ObjId) := (s.bit (aHubSynccfg o) 15, s.bit (aHubSynccfg o) 14, s.fld (aHubSynccfg o) 5 0)
  ∀ (h : HostHdr) (s : State), HostAdmits s h →
    (∀ (o : ObjId) (v : Word), let n := getF v 19 0 + beatSignals s o
      let x : BitVec 20 := if syncSat s o = true ∧ 2 ^ 20 ≤ n then 0xFFFFF else BitVec.ofNat 20 n
      ∃ u, ok (.hubSyncval h o v) s u h [aHubSyncval o, aHubSynccfg o, aFltInj 6] ∧ syncVal u o = x ∧
        (syncSat s o = false ∨ n < 2 ^ 20 → u.rd (aHubSynccfg o) = s.rd (aHubSynccfg o)) ∧
        ∀ w, w ∈ u.waiters ↔ w ∈ s.waiters ∧ ¬(w.obj = o ∧ waitMet (syncSat s o) x w.thr = true)) ∧
    (∀ (o : ObjId) (v : Word), ∃ u, AnswersOk (.hubSynccfg h o v) s u h kRegWr 0 0 [] ∧
      cfg u o = (v.getLsbD 15, v.getLsbD 14, getF v 5 0) ∧ u.bit (aHubSynccfg o) 13 = (s.bit (aHubSynccfg o) 13 && !(v.getLsbD 13 && !(s.fresh (aHubSynccfg o)).getLsbD 13)) ∧
      (∀ w, w ∈ u.waiters ↔ w ∈ s.waiters ∧ (cfg u o = cfg s o ∨ w.obj ≠ o)) ∧ (ReelsOff s → KeepsMemory s u) ∧
      (cfg u o = cfg s o → Keeps (accepted s h) u [aHubSynccfg o, aFltInj 6])) ∧
    (∀ v : Word, ∃ u, ok (.hubAcellFree h v) s u h [aFltInj 7] ∧ u.cell (getF v 7 0) = {} ∧ ∀ j, j ≠ getF v 7 0 → u.cell j = s.cell j) ∧
    (∀ (c : CtxId) (v : Word), (ctxState s c = ctxEmpty ∨ ctxState s c = ctxIdle → ∃ u,
        ok (.hubCtxptr1 h c v) s u h [aHubCtxptr0 c, aHubCtxptr1 c] ∧ u.rd (aHubCtxptr1 c) = v ∧
        u.rd (aHubCtxptr0 c) = (SMap.get (fun _ => none) s.lowWords (aHubCtxptr0 c)).getD (s.rd (aHubCtxptr0 c)) ∧
        ∀ e, e ∈ u.tlb ↔ e ∈ s.tlb ∧ e.ctx ≠ c) ∧
      (ctxState s c ≠ ctxEmpty → ctxState s c ≠ ctxIdle → denied (.hubCtxptr1 h c v) s h)) ∧
    (∀ v : Word, v.getLsbD 31 = true → (s.bit aHubTlbstat 0 = false → getF v 9 8 ≠ 3 → ∃ u,
        ok (.tlbInvalidate h v) s u h [aHubTlbinv1, aHubTlbstat] ∧ u.bit aHubTlbstat 0 = true ∧
        ∀ e, e ∈ u.tlb ↔ e ∈ s.tlb ∧ invalidates (getF v 9 8) (getF v 5 0) (s.fld aHubTlbinv0 26 0) e.ctx e.vpn = false) ∧
      (s.bit aHubTlbstat 0 = true ∨ getF v 9 8 = 3 → denied (.tlbInvalidate h v) s h)) ∧
    (planBusy s = false → planPending s = false → ∃ u, ok (.planLoad h) s u h [aHubPlanstat] ∧ planBusy u = true ∧ planReady u = false ∧
      u.fld aHubPlanstat 27 0 = 0 ∧ u.mesh.checking = true) ∧
    (planBusy s = true ∨ planPending s = true → denied (.planLoad h) s h) ∧
    (planReady s = true → planPending s = false → ∃ u, ok (.planSwitchRequest h) s u h [aHubPlanstat] ∧ planPending u = true ∧
      planReady u = true ∧ u.mesh.switchSlot.toNat = s.beat.toNat / 32) ∧
    (planReady s = false ∨ planPending s = true → denied (.planSwitchRequest h) s h) ∧
    (lgtBusy s = false → ∃ (u : State) (b : Bool), ok (.lgtSave h) s u h [aHubLgt] ∧ lgtBusy u = true ∧
      u.opt.writing = some (b, lgtNow (accepted s h)) ∧ lgtActiveB u = lgtActiveB s) ∧
    (lgtBusy s = true → denied (.lgtSave h) s h) ∧
    (allEmpty s = true → ∃ u, ok (.realign h) s u h [aMmAlign] ∧ alignState u = (if upPeers s = [] then 0 else 1) ∧ u.boot.realign = true ∧
      ∀ x ∈ upPeers s, (u.link x).meas = [] ∧ (u.link x).probes = []) ∧
    (allEmpty s = false → denied (.realign h) s h) ∧
    (prtState s = prtLead → s.lease.yieldSent = none → ∃ u, ok (.prtCtlYield h) s u h [] ∧ u.lease.yieldSent = some s.beat) ∧
    (prtState s ≠ prtLead → denied (.prtCtlYield h) s h) ∧
    (prtState s = prtPairing ∨ prtState s = prtFenced →
      (∃ u, ok (.solo h) s u h [aPrtState, aHlkRetq] ∧ prtState u = prtLead ∧ u.fld aPrtState 19 16 = 7) ∧
      ∃ u, ok (.prtCtlJoin h) s u h [aPrtState, aHlkRetq] ∧ prtState u = prtSyncing) ∧
    (prtState s ≠ prtPairing → prtState s ≠ prtFenced → denied (.solo h) s h ∧ denied (.prtCtlJoin h) s h) ∧
    ((s.fresh aMcFirst0).getLsbD 31 = false → ∃ u, ok (.mcClear h) s u h [aMcFirst0, aMcStat, aHlkRetq] ∧ u.bit aMcFirst0 31 = false ∧ u.bit aMcStat 31 = false) ∧
    (∀ v : Word, let blocked := detStrict s = true ∧ v.getLsbD 0 = false ∧ (s.bit aHubMode 1 = true ∨ s.bit aPrtCfg 31 = true ∨ s.bit aMcCtl 31 = true)
      (blocked → denied (.hubModeWrite h v) s h) ∧
      (¬blocked → ∃ (u : State) (m : BitVec 2), ok (.hubModeWrite h v) s u h [] ∧ u.modeNext = some m ∧ m.getLsbD 0 = v.getLsbD 0 ∧
        m.getLsbD 1 = (s.bit aHubMode 1 || v.getLsbD 1) ∧ ∀ t : State, domOn s 16 = true → step { u with pending := [] } = .next t →
          t.fld aHubMode 1 0 = m.toNat)) ∧
    (∀ v : Word, (getF v 31 24 ≠ 0xA5 → denied (.quiesce h v) s h ∧ denied (.hubRstWarm h v) s h) ∧
      (getF v 31 24 = 0xA5 → v.getLsbD 1 = true → v.getLsbD 0 = false →
        (allEmpty s = true → ∃ u, AnswersOk (.quiesce h v) s u h kRegWr 0 0 [] ∧ bootState u = bootQuiescing ∧ KeepsMemory s u ∧
          ∀ x : XPort, eyeState u x ≠ eyeLit ∧ eyeState u x ≠ eyeArmed ∧ u.bit (aEyeCtl x) 0 = true) ∧
        (allEmpty s = false → denied (.quiesce h v) s h))) ∧
    (∀ (i : Instr) (n : Nat), (i, n) ∈ [(.flashRead h, 0), (.flashProgram h, 1), (.flashErase h, 2)] →
      (flashOk s n = false → denied i s h) ∧
      (flashOk s n = true → ∃ u, ok i s u h [aHubFlashctl] ∧ u.bit aHubFlashctl 30 = true ∧ u.flash = s.flash ∧
        ∃ o, u.boot.flashOp = some o ∧ o.op.val = n ∧ o.addr = s.fld aHubFlashaddr 24 0 ∧
          o.buf = (List.range 64).flatMap fun j => leBytes 4 (s.rd (aHubFlashbuf j)).toNat)) ∧
    (∀ (j : Fin 12) (v : Word), ∃ u, ok (.hubNonce h j v) s u h [aHubNonce j, aHubAttctl] ∧ u.rd (aHubNonce j) = v ∧
      u.bit aHubAttctl 29 = false ∧ u.bit aHubAttctl 30 = s.bit aHubAttctl 30) ∧
    (attestOk s = true → ∃ u, ok (.attestGo h) s u h [aHubAttctl] ∧ u.bit aHubAttctl 30 = true ∧ u.boot.attNonce = nonceWords s) ∧
    (attestOk s = false → denied (.attestGo h) s h) ∧
    (guestFitted s = true → ∃ u, ok (.guestReset h) s u h ([aGfwState, aGfwCtl] ++ (List.range 12).map aGfwMeas) ∧ gfwState u = gfwReset ∧
      u.bit aGfwCtl 0 = true ∧ (∀ j : Fin 12, u.rd (aGfwMeas j) = 0) ∧ (∀ w, w ∈ u.waiters ↔ w ∈ s.waiters ∧ w.slot.val < 48) ∧
      ∀ x, x ∈ u.mesh.queue ↔ x ∈ s.mesh.queue ∧ x.req.requester ≠ guestRequester) ∧
    (∀ nonce : BitVec 384, ∃ u, ok (.guestResetRelease h nonce) s u h [aGfwState, aGfwCtl] ∧ u.bit aGfwCtl 0 = false ∧
      (gfwState s = gfwReset → gfwState u = gfwAttesting ∧ u.guestNonce = nonce ∧ Msg.guestNonce nonce ∈ u.net ∧
        ∃ t : Int, u.pins.guestFeed = some t ∧ (s.pins.guestFeed = none → t + 1000000000 ≤ s.clock)) ∧
      (gfwState s ≠ gfwReset → u.rd aGfwState = s.rd aGfwState)) ∧
    (gfwState s = gfwAttested → ∃ u, ok (.gfwOpen h) s u h [aGfwState, aGfwCtl] ∧ gfwState u = gfwOpened) ∧
    (gfwState s ≠ gfwAttested → denied (.gfwOpen h) s h) ∧
    ∃ u, ok (.gfwClose h) s u h [aGfwState, aGfwCtl] ∧ (gfwState s = gfwOpened → gfwState u = gfwAttested) ∧
      (gfwState s = gfwReset → gfwState u = gfwAttesting ∧ ∃ n, u.guestNonce = n ∧ Msg.guestNonce n ∈ u.net) ∧
      (gfwState s ≠ gfwOpened → gfwState s ≠ gfwReset → u.rd aGfwState = s.rd aGfwState)

/-- Writes of the other blocks' registers. -/
def Obligations.BlockWrites : Prop :=
  let powered (s : State) (a : Nat) : Prop := ∀ r, regAt a = some r → regOn s r a = true
  let ok (i : Instr) (s u : State) (h : HostHdr) (regs : List Nat) : Prop := AnswersOk i s u h kRegWr 0 0 [] ∧ Keeps (accepted s h) u regs
  let deniedBut (i : Instr) (s u : State) (h : HostHdr) (regs : List Nat) : Prop :=
    exec i s = .next (u.complete (keyOf h) kRegWr 0 .access 0 []) ∧ Keeps (accepted s h) u regs ∧ u.callers = s.callers
  let denied (i : Instr) (s : State) (h : HostHdr) : Prop := ∃ u, deniedBut i s u h []
  ∀ (h : HostHdr) (s : State), HostAdmits s h →
    (∀ (st : StackId) (v : Word) (o : TrainOutcome), let a := aPbMemctl (st.val / 8) (st.val % 8)
      powered s a → v.getLsbD 0 = true → (memState s st ≠ memFailed → denied (.stackRetrain h st v o) s h) ∧
      (memState s st = memFailed → ∃ u, ok (.stackRetrain h st v o) s u h [a, aHubMeminv, aPbMemstat (st.val / 8) (st.val % 8)] ∧
        u.bit aHubMeminv st = false ∧ memState u st = (if o = .failed then memFailed else memZeroing) ∧
        u.fld (aPbMemstat (st.val / 8) (st.val % 8)) 5 4 = (match o with | .speed2 => 2 | .speed1 => 1 | .failed => 0))) ∧
    (∀ (p : PortId) (v : Word), powered s (aRngSuspect p) → ∃ u, AnswersOk (.rngSuspectClear h p v) s u h kRegWr 0 0 [] ∧
      KeepsMemory s u ∧ ∀ l : LaneId, u.bit (aRngSuspect p) l = (s.bit (aRngSuspect p) l && !(v.getLsbD l && !(s.fresh (aRngSuspect p)).getLsbD l))) ∧
    (∀ p : PortId, powered s (aRngCtl p) → (retestAllowed s p = false → denied (.retest h p) s h) ∧
      (retestAllowed s p = true → ∃ u, ok (.retest h p) s u h [aRngState p, aRngLock p, aRngRxlock p] ∧ rngState u p = rngSearch ∧
        u.rd (aRngRxlock p) = 0 ∧ u.rd (aRngLock p) = if isXPort p then s.rd (aRngLock p) else 0)) ∧
    (∀ (b : BankId) (w : LaneId) (v : Word), powered s (aLbCtl b) → v.getLsbD 15 = true → getF v 20 16 = w.val →
      ((getF v 8 0 < 260 ∨ 400 < getF v 8 0 ∨ lineState s b w = lineLost) → denied (.hoGo h b v) s h) ∧
      (260 ≤ getF v 8 0 → getF v 8 0 ≤ 400 → lineState s b w ≠ lineLost → lineState s b w ≠ lineHandover → (s.bank b).ho = none →
        ∃ u, ok (.hoGo h b v) s u h [aLbCtl b, aLbLine b w] ∧ lineState u b w = lineHandover ∧
          (u.bank b).waiting = (s.bank b).waiting ++ [w] ∧ u.fld (aLbCtl b) 8 0 = getF v 8 0) ∧
      (260 ≤ getF v 8 0 → getF v 8 0 ≤ 400 → lineState s b w ≠ lineLost → lineState s b w ≠ lineHandover → (s.bank b).ho ≠ none →
        ∃ u, AnswersOk (.hoGo h b v) s u h kRegWr 0 0 [] ∧ lineState u b w = lineHandover ∧
          (u.bank b).waiting = (s.bank b).waiting ++ [w] ∧ KeepsMemory s u)) ∧
    (∀ (x : XPort) (v : Word), ∃ u, AnswersOk (.forceDark h x v) s u h kRegWr 0 0 [] ∧ KeepsMemory s u ∧
      u.bit (aEyeCtl x) 0 = v.getLsbD 0 ∧ (v.getLsbD 0 = true → eyeState u x ≠ eyeLit ∧ eyeState u x ≠ eyeArmed) ∧
      (v.getLsbD 0 = false → Keeps (accepted s h) u [aEyeCtl x])) ∧
    (∀ (x : XPort) (v : Word), v.getLsbD 2 = false → v.getLsbD 0 = false → ∃ u, AnswersOk (.lnkCtlDown h x v) s u h kRegWr 0 0 [] ∧
      KeepsMemory s u ∧ u.bit (aLnkCtl x) 1 = v.getLsbD 1 ∧
      (v.getLsbD 1 = true → lnkState u x ≤ lnkDown ∧ (lnkDown < lnkState s x → rngState u (96 + x.val) = rngDown)) ∧
      (v.getLsbD 1 = false → lnkState u x = lnkState s x ∧ (s.bit (aLnkCtl x) 1 = true → lnkState s x = lnkDown →
        rngState s (96 + x.val) = rngDown → rngState u (96 + x.val) = rngSearch))) ∧
    (∀ x : XPort, (lnkState s x ≠ lnkUp → denied (.reneg h x) s h) ∧
      (lnkState s x = lnkUp → s.bit (aLnkCtl x) 1 = false → ∃ u, AnswersOk (.reneg h x) s u h kRegWr 0 0 [] ∧ lnkState u x = lnkDown ∧
        rngState u (96 + x.val) = rngMargin ∧ u.bit (aLnkState x) 8 = true ∧ KeepsMemory s u)) ∧
    (∀ x : XPort, s.bit (aLnkCtl x) 1 = false → (s.bit (aLnkState x) 8 = false → ∃ u, ok (.flush h x) s u h []) ∧
      (s.bit (aLnkState x) 8 = true → ∃ u, AnswersOk (.flush h x) s u h kRegWr 0 0 [] ∧ u.bit (aLnkState x) 8 = false ∧
        u.bit (aLnkState x) 9 = true ∧ u.rd (aLnkSession x) = s.rd (aLnkSession x) + 1 ∧ contained 26 0x31 2 x 0 ∈ u.reports)) ∧
    (hlkState s ≠ hlkUp → denied (.hlkCtlRetrain h) s h) ∧
    (hlkState s = hlkUp → ∃ u, AnswersOk (.hlkCtlRetrain h) s u h kRegWr 0 0 [] ∧ exec .hlkRetrain (accepted s h) = .next u) ∧
    (∃ u, AnswersOk (.hlkCtlReset h) s u h kRegWr 0 0 [] ∧ exec (.hostLinkReset .ctlReset) (accepted s h) = .next u) ∧
    (∀ v : Word, ∃ u, ok (.fltAck h v) s u h [] ∧ ∀ j : Fin 32, timerOf u j =
      if v.getLsbD j = true ∧ (∀ t, timerOf s j = some t → t.left ≠ 0) then none else timerOf s j) ∧
    (∀ v : Word, ∃ u, ok (.fltStatus1Clear h v) s u h [aFltStatus1] ∧ ∀ j : Fin 32,
      if v.getLsbD j = true ∧ (s.fresh aFltStatus1).getLsbD j = false ∧ s.bit aFltStatus1 j = true ∧ (∀ t, timerOf s j = some t → t.left ≠ 0) ∧
          (recordedAt s j).any (causePresent s j) = false
        then u.bit aFltStatus1 j = false ∧ timerOf u j = none
        else u.bit aFltStatus1 j = s.bit aFltStatus1 j ∧ timerOf u j = timerOf s j) ∧
    (∀ (k : Fin 10) (v : Word), (injInstances k ≤ getF v 23 16 → denied (.fltInj h k v) s h) ∧
      (getF v 23 16 < injInstances k → ∃ u, ok (.fltInj h k v) s u h [aFltInj k] ∧ u.bit (aFltInj k) 31 = v.getLsbD 31 ∧
        u.fld (aFltInj k) 23 16 = getF v 23 16 ∧ u.fld (aFltInj k) 7 0 = getF v 7 0)) ∧
    (∀ v : Word, ∃ u, ok (.fltIinj h v) s u h [aFltIinj] ∧ u.bit aFltIinj 31 = v.getLsbD 31 ∧ u.fld aFltIinj 30 20 = getF v 30 20 ∧
      u.fld aFltIinj 15 0 = getF v 15 0) ∧
    (∀ v : Word, (264 ≤ getF v 8 0 → denied (.recheck h v) s h) ∧
      ∀ n : Fin 264, getF v 8 0 = n.val → ∃ u, ok (.recheck h v) s u h [aTpSensctl] ∧ u.fld aTpSensctl 8 0 = n ∧
        ∀ m, m ∈ u.recheck ↔ m ∈ s.recheck ∨ (m = n ∧ v.getLsbD 31 = true ∧ sensorBroken s n = true)) ∧
    (∀ (d : DieId) (v : Word), v.getLsbD 31 = true → v.getLsbD 30 = false → getF v 3 0 = d.val →
      ((s.dieOp.isSome = true ∨ (tdState s d ≠ tdServe ∧ tdState s d ≠ tdRetired) ∨ (tdState s d = tdRetired ∧ domOn s d = false)) →
        denied (.retire h v) s h) ∧
      (s.dieOp = none → tdState s d = tdServe → ∃ u, AnswersOk (.retire h v) s u h kRegWr 0 0 [] ∧ u.fld aTpTdctl 3 0 = d ∧
        (savingOn s d = false → tdState u d = tdDraining ∧ u.dieOp = some { die := d, restore := false, draining := true }) ∧
        (savingOn s d = true → tdState u d = tdServe ∧ u.dieOp = some { die := d, restore := false })) ∧
      (s.dieOp = none → tdState s d = tdRetired → domOn s d = true → ∃ u, AnswersOk (.retire h v) s u h kRegWr 0 0 [] ∧
        tdState u d = tdRetired ∧ (savingOn s d = false → domOn u d = false) ∧
        (savingOn s d = true → domOn u d = true ∧ u.dieOp = some { die := d, restore := false }))) ∧
    (∀ (d : DieId) (v : Word), v.getLsbD 30 = true → v.getLsbD 31 = false → getF v 3 0 = d.val →
      (s.dieOp.isSome = true → denied (.dieRestore h v) s h) ∧
      (s.dieOp = none → tdState s d ≠ tdRetired → ∃ u, deniedBut (.dieRestore h v) s u h [aTpTdctl] ∧ u.fld aTpTdctl 27 24 = 1) ∧
      (s.dieOp = none → tdState s d = tdRetired → ∃ u, AnswersOk (.dieRestore h v) s u h kRegWr 0 0 [] ∧ domOn u d = true ∧
        tdState u d = tdInit ∧ u.fld aTpTdctl 27 24 = 0 ∧ u.dieOp = some { die := d, restore := true } ∧
        ∀ j, j < 8 → rngState u (8 * d + j) = rngSearch)) ∧
    (∀ d : DieId, powered s (aDbgSample d) → ∃ u, AnswersOk (.dbgSample h d) s u h kRegWr 0 0 [] ∧ KeepsMemory s u ∧
      (∀ j : Fin 6, u.rd64 (aDbgDsmp d j 0) = s.rd64 (aDbgDcnt d j 0)) ∧ u.rd64 (aDbgDsmpbeat d 0) = s.beat ∧
      ∀ (k : CallerId) (j : Fin 7), u.rd (aDbgSetTag d k 0 + 4 * j) = s.rd (aDbgSetTag d k 0 + 4 * j) ∧
        u.rd (aDbgSetTag d k 1 + 4 * j) = s.rd (aDbgSetTag d k 1 + 4 * j) ∧
        u.rd (aDbgSetTag d k 2 + 4 * j) = (if s.bit (aDbgSetInfo d k 0) 31 = true ∧ s.rd (aDbgSetBeat d k 0) = s.beat.truncate 32
          then s.rd (aDbgSetTag d k 1 + 4 * j) else s.rd (aDbgSetTag d k 0 + 4 * j)) ∧ u.rd (aDbgSetBeat d k 2) = s.beat.truncate 32) ∧
    (∀ (d : DieId) (v : Word), powered s (aDbgReelctl d) → let a := aDbgReelctl d
      (getF v 29 28 = 3 ∨ (s.bit a 31 = true ∧ (getF v 29 28 ≠ s.fld a 29 28 ∨ getF v 15 0 ≠ s.fld a 15 0)) →
        denied (.reelEnable h d v) s h) ∧
      (getF v 29 28 ≠ 3 → s.bit a 31 = false → v.getLsbD 31 = true → ∃ u, ok (.reelEnable h d v) s u h [a, aDbgReelptr d] ∧
        u.bit a 31 = true ∧ u.bit a 30 = v.getLsbD 30 ∧ u.fld a 29 28 = getF v 29 28 ∧ u.fld a 15 0 = getF v 15 0 ∧
        u.bit a 27 = false ∧ u.bit a 26 = false ∧ u.rd (aDbgReelptr d) = 0 ∧ (u.reel d).buf = [] ∧ (u.reel d).total = 0)) ∧
    (∀ (d : DieId) (v : Word), powered s (aDbgTrigcfg1 d) → v.getLsbD 31 = true → ∃ u, AnswersOk (.force h d v) s u h kRegWr 0 0 [] ∧
      u.fld (aDbgTrigcfg1 d) 27 18 = getF v 27 18 ∧ u.fld (aDbgTrigcfg1 d) 4 1 = getF v 4 1 ∧
      (s.bit (aDbgTrigcap2 d) 31 = true → Keeps (accepted s h) u [aDbgTrigcfg1 d]) ∧
      (s.bit (aDbgTrigcap2 d) 31 = false → u.rd64 (aDbgTrigcap0 d) = s.beat ∧
        u.rd (aDbgTrigcap2 d) = BitVec.ofNat 32 (2 ^ 31 + s.fld (aDbgReelptr d) 15 0))) ∧
    (dumpArmed s = false ∨ dumpBusy s = true → denied (.dumpGo h) s h) ∧
    (dumpArmed s = true → dumpBusy s = false → ∃ (u : State) (o : DumpOp), AnswersOk (.dumpGo h) s u h kRegWr 0 0 [] ∧ dumpBusy u = true ∧
      u.dbg.dump = some o ∧ o.cause = 2 ∧ o.first = s.beat) ∧
    (dumpBaseOk s = false → denied (.dumpArm h) s h) ∧
    (dumpBaseOk s = true → ∃ u, ok (.dumpArm h) s u h [aDbgDumpctl] ∧ dumpArmed u = true ∧ dumpBusy u = dumpBusy s)
end

