-- ==== Sys2Proof/Laws/SMap.lean ====
section
/-! SUPPORT. Laws of the sparse maps: what a key reads as after each operation, that each operation keeps the canonical
form, and that two canonical maps that read alike are equal. -/
namespace Sys2Proof.Machine

theorem SMap.get_erase {α : Type} (d : Nat → α) (m : SMap α) (k j : Nat) :
    SMap.get d (SMap.erase m k) j = if k = j then d j else SMap.get d m j := by
  induction m with
  | nil => simp [SMap.erase, SMap.get]
  | cons e m ih =>
    obtain ⟨a, v⟩ := e
    simp only [SMap.erase]
    split
    · next h => subst h; rw [ih]; split <;> simp_all [SMap.get]
    · next h =>
      simp only [SMap.get]
      split
      · next h' => subst h'; simp [Ne.symm h]
      · exact ih

theorem SMap.get_insert {α : Type} (d : Nat → α) (m : SMap α) (k j : Nat) (v : α)
    (hk : ∀ e ∈ m, e.1 ≠ k) : SMap.get d (SMap.insert m k v) j = if k = j then v else SMap.get d m j := by
  induction m with
  | nil => simp [SMap.insert, SMap.get]
  | cons e m ih =>
    obtain ⟨a, w⟩ := e
    simp only [SMap.insert]
    split
    · simp only [SMap.get]
    · have ha : a ≠ k := hk (a, w) (by simp)
      have hm := ih fun e he => hk e (by simp [he])
      simp only [SMap.get, hm]
      by_cases h1 : a = j
      · subst h1; simp [Ne.symm ha]
      · simp [h1]

theorem SMap.mem_erase {α : Type} (m : SMap α) (k : Nat) (e : Nat × α) :
    e ∈ SMap.erase m k ↔ e ∈ m ∧ e.1 ≠ k := by
  induction m with
  | nil => simp [SMap.erase]
  | cons f m ih =>
    obtain ⟨a, v⟩ := f
    simp only [SMap.erase]
    split
    · next h => subst h; rw [ih]; simp only [List.mem_cons]; grind
    · next h => simp only [List.mem_cons, ih]; grind

/-- Reading after one write. -/
theorem SMap.get_set {α : Type} [DecidableEq α] (d : Nat → α) (m : SMap α) (k j : Nat) (v : α) :
    SMap.get d (SMap.set d m k v) j = if k = j then v else SMap.get d m j := by
  unfold SMap.set
  split
  · next h => rw [SMap.get_erase]; split <;> simp_all
  · rw [SMap.get_insert _ _ _ _ _ (fun e he => ((SMap.mem_erase m k e).1 he).2), SMap.get_erase]
    split <;> simp_all

theorem SMap.get_set_same {α : Type} [DecidableEq α] (d : Nat → α) (m : SMap α) (k : Nat) (v : α) :
    SMap.get d (SMap.set d m k v) k = v := by simp [SMap.get_set]

theorem SMap.get_set_ne {α : Type} [DecidableEq α] (d : Nat → α) (m : SMap α) {k j : Nat} (v : α) (h : k ≠ j) :
    SMap.get d (SMap.set d m k v) j = SMap.get d m j := by simp [SMap.get_set, h]

theorem SMap.get_filter {α : Type} (d : Nat → α) (m : SMap α) (p : Nat → Bool) (j : Nat) :
    SMap.get d (m.filter fun e => p e.1) j = if p j then SMap.get d m j else d j := by
  induction m with
  | nil => simp [SMap.get]
  | cons e m ih =>
    obtain ⟨a, v⟩ := e
    by_cases h : p a = true
    · rw [List.filter_cons_of_pos (by simpa using h)]
      simp only [SMap.get]
      split
      · next h' => subst h'; simp [h]
      · exact ih
    · rw [List.filter_cons_of_neg (by simpa using h), ih]
      simp only [SMap.get]
      split
      · split
        · next h1 h2 => subst h2; exact absurd h1 h
        · rfl
      · rfl

/-- Reading after a range is cleared. -/
theorem SMap.get_clear {α : Type} (d : Nat → α) (m : SMap α) (lo hi j : Nat) :
    SMap.get d (SMap.clear m lo hi) j = if lo ≤ j ∧ j ≤ hi then d j else SMap.get d m j := by
  unfold SMap.clear
  rw [SMap.get_filter d m (fun a => !(lo ≤ a && a ≤ hi)) j]
  by_cases h1 : lo ≤ j <;> by_cases h2 : j ≤ hi <;> simp [h1, h2]

/-- Reading after consecutive keys were written. -/
theorem SMap.get_setList {α : Type} [DecidableEq α] (d : Nat → α) (vs : List α) (m : SMap α) (k j : Nat) :
    SMap.get d (SMap.setList d m k vs) j =
      if h : k ≤ j ∧ j - k < vs.length then vs[j - k] else SMap.get d m j := by
  induction vs generalizing m k with
  | nil => simp [SMap.setList]
  | cons v vs ih =>
    simp only [SMap.setList, ih, SMap.get_set]
    by_cases hk : k = j
    · subst hk; simp <;> omega
    · by_cases h : k + 1 ≤ j
      · obtain ⟨n, rfl⟩ : ∃ n, j = k + 1 + n := ⟨j - (k + 1), by omega⟩
        have e1 : k + 1 + n - (k + 1) = n := by omega
        have e2 : k + 1 + n - k = n + 1 := by omega
        have e3 : k ≤ k + 1 + n := by omega
        simp [e2, e3, hk]
      · have h1 : ¬ k ≤ j := by omega
        simp [h, h1, hk]

theorem SMap.wfFrom_iff {α : Type} [DecidableEq α] (d : Nat → α) (lo : Option Nat) (m : SMap α) :
    SMap.wfFrom d lo m = true ↔
      m.Pairwise (fun e f => e.1 < f.1) ∧ (∀ e ∈ m, e.2 ≠ d e.1) ∧ ∀ l ∈ lo, ∀ e ∈ m, l < e.1 := by
  induction m generalizing lo with
  | nil => simp [SMap.wfFrom]
  | cons e m ih =>
    obtain ⟨a, v⟩ := e
    cases lo with
    | none =>
      simp [SMap.wfFrom, ih, List.pairwise_cons, -Prod.forall]
      constructor
      · rintro ⟨h1, h2, h3, h4⟩
        exact ⟨⟨h4, h2⟩, h1, h3⟩
      · rintro ⟨⟨h4, h2⟩, h1, h3⟩
        exact ⟨h1, h2, h3, h4⟩
    | some l =>
      simp [SMap.wfFrom, ih, List.pairwise_cons, -Prod.forall]
      constructor
      · rintro ⟨⟨h1, h2⟩, h3, h4, h5⟩
        exact ⟨⟨h5, h3⟩, ⟨h2, h4⟩, h1, fun e he => Nat.lt_trans h1 (h5 e he)⟩
      · rintro ⟨⟨h5, h3⟩, ⟨h2, h4⟩, h1, -⟩
        exact ⟨⟨h1, h2⟩, h3, h4, h5⟩

theorem SMap.wf_iff {α : Type} [DecidableEq α] (d : Nat → α) (m : SMap α) :
    SMap.wf d m = true ↔ m.Pairwise (fun e f => e.1 < f.1) ∧ ∀ e ∈ m, e.2 ≠ d e.1 := by
  simp [SMap.wf, SMap.wfFrom_iff]

theorem SMap.wf_nil {α : Type} [DecidableEq α] (d : Nat → α) : SMap.wf d [] = true := rfl

theorem SMap.wf_filter {α : Type} [DecidableEq α] (d : Nat → α) (m : SMap α) (p : Nat × α → Bool)
    (h : SMap.wf d m = true) : SMap.wf d (m.filter p) = true := by
  rw [SMap.wf_iff] at *
  exact ⟨h.1.filter p, fun e he => h.2 e (List.mem_filter.1 he).1⟩

theorem SMap.wf_clear {α : Type} [DecidableEq α] (d : Nat → α) (m : SMap α) (lo hi : Nat)
    (h : SMap.wf d m = true) : SMap.wf d (SMap.clear m lo hi) = true := SMap.wf_filter d m _ h

theorem SMap.erase_sublist {α : Type} (m : SMap α) (k : Nat) : (SMap.erase m k).Sublist m := by
  induction m with
  | nil => simp [SMap.erase]
  | cons e m ih =>
    obtain ⟨a, v⟩ := e
    simp only [SMap.erase]
    split
    · exact ih.cons _
    · exact ih.cons_cons _

theorem SMap.wf_erase {α : Type} [DecidableEq α] (d : Nat → α) (m : SMap α) (k : Nat)
    (h : SMap.wf d m = true) : SMap.wf d (SMap.erase m k) = true := by
  rw [SMap.wf_iff] at *
  exact ⟨h.1.sublist (SMap.erase_sublist m k), fun e he => h.2 e ((SMap.mem_erase m k e).1 he).1⟩

theorem SMap.mem_insert {α : Type} (m : SMap α) (k : Nat) (v : α) (e : Nat × α) :
    e ∈ SMap.insert m k v ↔ e = (k, v) ∨ e ∈ m := by
  induction m with
  | nil => simp [SMap.insert]
  | cons f m ih =>
    simp only [SMap.insert]
    split
    · simp
    · simp only [List.mem_cons, ih]; grind

theorem SMap.pairwise_insert {α : Type} (m : SMap α) (k : Nat) (v : α)
    (h : m.Pairwise (fun e f => e.1 < f.1)) (hk : ∀ e ∈ m, e.1 ≠ k) :
    (SMap.insert m k v).Pairwise (fun e f => e.1 < f.1) := by
  induction m with
  | nil => simp [SMap.insert]
  | cons f m ih =>
    obtain ⟨a, w⟩ := f
    rw [List.pairwise_cons] at h
    simp only [SMap.insert]
    split
    · next hlt =>
      refine List.pairwise_cons.2 ⟨fun e he => ?_, List.pairwise_cons.2 h⟩
      rcases List.mem_cons.1 he with rfl | he
      · exact hlt
      · exact Nat.lt_trans hlt (h.1 e he)
    · next hlt =>
      have ha : a ≠ k := hk (a, w) (by simp)
      refine List.pairwise_cons.2 ⟨fun e he => ?_, ih h.2 fun e he => hk e (by simp [he])⟩
      rcases (SMap.mem_insert m k v e).1 he with rfl | he
      · show a < k; omega
      · exact h.1 e he

theorem SMap.wf_set {α : Type} [DecidableEq α] (d : Nat → α) (m : SMap α) (k : Nat) (v : α)
    (h : SMap.wf d m = true) : SMap.wf d (SMap.set d m k v) = true := by
  have he := SMap.wf_erase d m k h
  unfold SMap.set
  split
  · exact he
  · next hv =>
    rw [SMap.wf_iff] at *
    refine ⟨SMap.pairwise_insert _ k v he.1 fun e hm => ((SMap.mem_erase m k e).1 hm).2, fun e hm => ?_⟩
    rcases (SMap.mem_insert _ k v e).1 hm with rfl | hm
    · exact hv
    · exact he.2 e hm

theorem SMap.wf_setList {α : Type} [DecidableEq α] (d : Nat → α) (vs : List α) (m : SMap α) (k : Nat)
    (h : SMap.wf d m = true) : SMap.wf d (SMap.setList d m k vs) = true := by
  induction vs generalizing m k with
  | nil => exact h
  | cons v vs ih => exact ih _ _ (SMap.wf_set d m k v h)

/-- A key that a canonical map does not list, or lists later, reads as its default. -/
theorem SMap.get_of_lt {α : Type} (d : Nat → α) (m : SMap α) (j : Nat) (h : ∀ e ∈ m, j < e.1) :
    SMap.get d m j = d j := by
  induction m with
  | nil => rfl
  | cons e m ih =>
    obtain ⟨a, v⟩ := e
    have ha : j < a := h (a, v) (by simp)
    simp only [SMap.get]
    rw [if_neg (by omega)]
    exact ih fun e he => h e (by simp [he])

/-- Two canonical maps that read alike are one. -/
theorem SMap.ext_of_wf {α : Type} [DecidableEq α] (d : Nat → α) (m n : SMap α) (hm : SMap.wf d m = true)
    (hn : SMap.wf d n = true) (h : ∀ j, SMap.get d m j = SMap.get d n j) : m = n := by
  rw [SMap.wf_iff] at hm hn
  induction m generalizing n with
  | nil =>
    cases n with
    | nil => rfl
    | cons f n =>
      obtain ⟨b, w⟩ := f
      have := h b
      simp only [SMap.get, if_true] at this
      exact absurd this.symm (hn.2 (b, w) (by simp))
  | cons e m ih =>
    obtain ⟨a, v⟩ := e
    cases n with
    | nil =>
      have := h a
      simp only [SMap.get, if_true] at this
      exact absurd this (hm.2 (a, v) (by simp))
    | cons f n =>
      obtain ⟨b, w⟩ := f
      rw [List.pairwise_cons] at hm hn
      have hva := hm.2 (a, v) (by simp)
      have hwb := hn.2 (b, w) (by simp)
      have hab : a = b := by
        rcases Nat.lt_trichotomy a b with hlt | heq | hlt
        · have := h a
          rw [SMap.get, if_pos rfl, SMap.get_of_lt d ((b, w) :: n) a] at this
          · exact absurd this hva
          · intro e he
            rcases List.mem_cons.1 he with rfl | he
            · exact hlt
            · exact Nat.lt_trans hlt (hn.1.1 e he)
        · exact heq
        · have := h b
          rw [SMap.get_of_lt d ((a, v) :: m) b, SMap.get, if_pos rfl] at this
          · exact absurd this.symm hwb
          · intro e he
            rcases List.mem_cons.1 he with rfl | he
            · exact hlt
            · exact Nat.lt_trans hlt (hm.1.1 e he)
      subst hab
      have hvw : v = w := by simpa [SMap.get] using h a
      subst hvw
      have hmn : m = n := by
        refine ih n ⟨hm.1.2, fun e he => hm.2 e (by simp [he])⟩ ⟨hn.1.2, fun e he => hn.2 e (by simp [he])⟩ fun j => ?_
        by_cases hj : a = j
        · subst hj
          rw [SMap.get_of_lt d m a hm.1.1, SMap.get_of_lt d n a hn.1.1]
        · have := h j
          simpa [SMap.get, hj] using this
      rw [hmn]

end Sys2Proof.Machine
end

