-- ==== Sys2Proof/Laws/State.lean ====
section
/-! SUPPORT. What each named update of the state leaves in each field: one lemma per field per update, true by `rfl`. -/
namespace Sys2Proof.Machine


/-! ### State.wr -/

@[simp] theorem State.wr_pending (s : State) (a : Nat) (v : Word) : (s.wr a v).pending = s.pending := rfl
@[simp] theorem State.wr_lowWords (s : State) (a : Nat) (v : Word) : (s.wr a v).lowWords = s.lowWords := rfl
@[simp] theorem State.wr_latches (s : State) (a : Nat) (v : Word) : (s.wr a v).latches = s.latches := rfl
@[simp] theorem State.wr_mem (s : State) (a : Nat) (v : Word) : (s.wr a v).mem = s.mem := rfl
@[simp] theorem State.wr_ecc (s : State) (a : Nat) (v : Word) : (s.wr a v).ecc = s.ecc := rfl
@[simp] theorem State.wr_beat (s : State) (a : Nat) (v : Word) : (s.wr a v).beat = s.beat := rfl
@[simp] theorem State.wr_clock (s : State) (a : Nat) (v : Word) : (s.wr a v).clock = s.clock := rfl
@[simp] theorem State.wr_now (s : State) (a : Nat) (v : Word) : (s.wr a v).now = s.now := rfl
@[simp] theorem State.wr_lag (s : State) (a : Nat) (v : Word) : (s.wr a v).lag = s.lag := rfl
@[simp] theorem State.wr_freeCtr (s : State) (a : Nat) (v : Word) : (s.wr a v).freeCtr = s.freeCtr := rfl
@[simp] theorem State.wr_reports (s : State) (a : Nat) (v : Word) : (s.wr a v).reports = s.reports := rfl
@[simp] theorem State.wr_net (s : State) (a : Nat) (v : Word) : (s.wr a v).net = s.net := rfl
@[simp] theorem State.wr_flight (s : State) (a : Nat) (v : Word) : (s.wr a v).flight = s.flight := rfl
@[simp] theorem State.wr_hostOut (s : State) (a : Nat) (v : Word) : (s.wr a v).hostOut = s.hostOut := rfl
@[simp] theorem State.wr_retq (s : State) (a : Nat) (v : Word) : (s.wr a v).retq = s.retq := rfl
@[simp] theorem State.wr_x15Host (s : State) (a : Nat) (v : Word) : (s.wr a v).x15Host = s.x15Host := rfl
@[simp] theorem State.wr_callers (s : State) (a : Nat) (v : Word) : (s.wr a v).callers = s.callers := rfl
@[simp] theorem State.wr_cctx (s : State) (a : Nat) (v : Word) : (s.wr a v).cctx = s.cctx := rfl
@[simp] theorem State.wr_wins (s : State) (a : Nat) (v : Word) : (s.wr a v).wins = s.wins := rfl
@[simp] theorem State.wr_tagWait (s : State) (a : Nat) (v : Word) : (s.wr a v).tagWait = s.tagWait := rfl
@[simp] theorem State.wr_waiters (s : State) (a : Nat) (v : Word) : (s.wr a v).waiters = s.waiters := rfl
@[simp] theorem State.wr_cells (s : State) (a : Nat) (v : Word) : (s.wr a v).cells = s.cells := rfl
@[simp] theorem State.wr_tlb (s : State) (a : Nat) (v : Word) : (s.wr a v).tlb = s.tlb := rfl
@[simp] theorem State.wr_walks (s : State) (a : Nat) (v : Word) : (s.wr a v).walks = s.walks := rfl
@[simp] theorem State.wr_segs (s : State) (a : Nat) (v : Word) : (s.wr a v).segs = s.segs := rfl
@[simp] theorem State.wr_readReqs (s : State) (a : Nat) (v : Word) : (s.wr a v).readReqs = s.readReqs := rfl
@[simp] theorem State.wr_readWait (s : State) (a : Nat) (v : Word) : (s.wr a v).readWait = s.readWait := rfl
@[simp] theorem State.wr_ctxs (s : State) (a : Nat) (v : Word) : (s.wr a v).ctxs = s.ctxs := rfl
@[simp] theorem State.wr_mesh (s : State) (a : Nat) (v : Word) : (s.wr a v).mesh = s.mesh := rfl
@[simp] theorem State.wr_base (s : State) (a : Nat) (v : Word) : (s.wr a v).base = s.base := rfl
@[simp] theorem State.wr_dbg (s : State) (a : Nat) (v : Word) : (s.wr a v).dbg = s.dbg := rfl
@[simp] theorem State.wr_links (s : State) (a : Nat) (v : Word) : (s.wr a v).links = s.links := rfl
@[simp] theorem State.wr_remotes (s : State) (a : Nat) (v : Word) : (s.wr a v).remotes = s.remotes := rfl
@[simp] theorem State.wr_nextTag (s : State) (a : Nat) (v : Word) : (s.wr a v).nextTag = s.nextTag := rfl
@[simp] theorem State.wr_mc (s : State) (a : Nat) (v : Word) : (s.wr a v).mc = s.mc := rfl
@[simp] theorem State.wr_heldResults (s : State) (a : Nat) (v : Word) : (s.wr a v).heldResults = s.heldResults := rfl
@[simp] theorem State.wr_syncHeld (s : State) (a : Nat) (v : Word) : (s.wr a v).syncHeld = s.syncHeld := rfl
@[simp] theorem State.wr_copyOp (s : State) (a : Nat) (v : Word) : (s.wr a v).copyOp = s.copyOp := rfl
@[simp] theorem State.wr_image (s : State) (a : Nat) (v : Word) : (s.wr a v).image = s.image := rfl
@[simp] theorem State.wr_guestNonce (s : State) (a : Nat) (v : Word) : (s.wr a v).guestNonce = s.guestNonce := rfl
@[simp] theorem State.wr_opt (s : State) (a : Nat) (v : Word) : (s.wr a v).opt = s.opt := rfl
@[simp] theorem State.wr_eeprom (s : State) (a : Nat) (v : Word) : (s.wr a v).eeprom = s.eeprom := rfl
@[simp] theorem State.wr_leftOut (s : State) (a : Nat) (v : Word) : (s.wr a v).leftOut = s.leftOut := rfl
@[simp] theorem State.wr_hlk (s : State) (a : Nat) (v : Word) : (s.wr a v).hlk = s.hlk := rfl
@[simp] theorem State.wr_light (s : State) (a : Nat) (v : Word) : (s.wr a v).light = s.light := rfl
@[simp] theorem State.wr_lease (s : State) (a : Nat) (v : Word) : (s.wr a v).lease = s.lease := rfl
@[simp] theorem State.wr_pins (s : State) (a : Nat) (v : Word) : (s.wr a v).pins = s.pins := rfl
@[simp] theorem State.wr_modeNext (s : State) (a : Nat) (v : Word) : (s.wr a v).modeNext = s.modeNext := rfl
@[simp] theorem State.wr_flt (s : State) (a : Nat) (v : Word) : (s.wr a v).flt = s.flt := rfl
@[simp] theorem State.wr_boot (s : State) (a : Nat) (v : Word) : (s.wr a v).boot = s.boot := rfl
@[simp] theorem State.wr_flash (s : State) (a : Nat) (v : Word) : (s.wr a v).flash = s.flash := rfl
@[simp] theorem State.wr_dieOp (s : State) (a : Nat) (v : Word) : (s.wr a v).dieOp = s.dieOp := rfl
@[simp] theorem State.wr_recheck (s : State) (a : Nat) (v : Word) : (s.wr a v).recheck = s.recheck := rfl

/-! ### State.setFld -/

@[simp] theorem State.setFld_pending (s : State) (a hi lo v : Nat) : (s.setFld a hi lo v).pending = s.pending := rfl
@[simp] theorem State.setFld_lowWords (s : State) (a hi lo v : Nat) : (s.setFld a hi lo v).lowWords = s.lowWords := rfl
@[simp] theorem State.setFld_latches (s : State) (a hi lo v : Nat) : (s.setFld a hi lo v).latches = s.latches := rfl
@[simp] theorem State.setFld_mem (s : State) (a hi lo v : Nat) : (s.setFld a hi lo v).mem = s.mem := rfl
@[simp] theorem State.setFld_ecc (s : State) (a hi lo v : Nat) : (s.setFld a hi lo v).ecc = s.ecc := rfl
@[simp] theorem State.setFld_beat (s : State) (a hi lo v : Nat) : (s.setFld a hi lo v).beat = s.beat := rfl
@[simp] theorem State.setFld_clock (s : State) (a hi lo v : Nat) : (s.setFld a hi lo v).clock = s.clock := rfl
@[simp] theorem State.setFld_now (s : State) (a hi lo v : Nat) : (s.setFld a hi lo v).now = s.now := rfl
@[simp] theorem State.setFld_lag (s : State) (a hi lo v : Nat) : (s.setFld a hi lo v).lag = s.lag := rfl
@[simp] theorem State.setFld_freeCtr (s : State) (a hi lo v : Nat) : (s.setFld a hi lo v).freeCtr = s.freeCtr := rfl
@[simp] theorem State.setFld_reports (s : State) (a hi lo v : Nat) : (s.setFld a hi lo v).reports = s.reports := rfl
@[simp] theorem State.setFld_net (s : State) (a hi lo v : Nat) : (s.setFld a hi lo v).net = s.net := rfl
@[simp] theorem State.setFld_flight (s : State) (a hi lo v : Nat) : (s.setFld a hi lo v).flight = s.flight := rfl
@[simp] theorem State.setFld_hostOut (s : State) (a hi lo v : Nat) : (s.setFld a hi lo v).hostOut = s.hostOut := rfl
@[simp] theorem State.setFld_retq (s : State) (a hi lo v : Nat) : (s.setFld a hi lo v).retq = s.retq := rfl
@[simp] theorem State.setFld_x15Host (s : State) (a hi lo v : Nat) : (s.setFld a hi lo v).x15Host = s.x15Host := rfl
@[simp] theorem State.setFld_callers (s : State) (a hi lo v : Nat) : (s.setFld a hi lo v).callers = s.callers := rfl
@[simp] theorem State.setFld_cctx (s : State) (a hi lo v : Nat) : (s.setFld a hi lo v).cctx = s.cctx := rfl
@[simp] theorem State.setFld_wins (s : State) (a hi lo v : Nat) : (s.setFld a hi lo v).wins = s.wins := rfl
@[simp] theorem State.setFld_tagWait (s : State) (a hi lo v : Nat) : (s.setFld a hi lo v).tagWait = s.tagWait := rfl
@[simp] theorem State.setFld_waiters (s : State) (a hi lo v : Nat) : (s.setFld a hi lo v).waiters = s.waiters := rfl
@[simp] theorem State.setFld_cells (s : State) (a hi lo v : Nat) : (s.setFld a hi lo v).cells = s.cells := rfl
@[simp] theorem State.setFld_tlb (s : State) (a hi lo v : Nat) : (s.setFld a hi lo v).tlb = s.tlb := rfl
@[simp] theorem State.setFld_walks (s : State) (a hi lo v : Nat) : (s.setFld a hi lo v).walks = s.walks := rfl
@[simp] theorem State.setFld_segs (s : State) (a hi lo v : Nat) : (s.setFld a hi lo v).segs = s.segs := rfl
@[simp] theorem State.setFld_readReqs (s : State) (a hi lo v : Nat) : (s.setFld a hi lo v).readReqs = s.readReqs := rfl
@[simp] theorem State.setFld_readWait (s : State) (a hi lo v : Nat) : (s.setFld a hi lo v).readWait = s.readWait := rfl
@[simp] theorem State.setFld_ctxs (s : State) (a hi lo v : Nat) : (s.setFld a hi lo v).ctxs = s.ctxs := rfl
@[simp] theorem State.setFld_mesh (s : State) (a hi lo v : Nat) : (s.setFld a hi lo v).mesh = s.mesh := rfl
@[simp] theorem State.setFld_base (s : State) (a hi lo v : Nat) : (s.setFld a hi lo v).base = s.base := rfl
@[simp] theorem State.setFld_dbg (s : State) (a hi lo v : Nat) : (s.setFld a hi lo v).dbg = s.dbg := rfl
@[simp] theorem State.setFld_links (s : State) (a hi lo v : Nat) : (s.setFld a hi lo v).links = s.links := rfl
@[simp] theorem State.setFld_remotes (s : State) (a hi lo v : Nat) : (s.setFld a hi lo v).remotes = s.remotes := rfl
@[simp] theorem State.setFld_nextTag (s : State) (a hi lo v : Nat) : (s.setFld a hi lo v).nextTag = s.nextTag := rfl
@[simp] theorem State.setFld_mc (s : State) (a hi lo v : Nat) : (s.setFld a hi lo v).mc = s.mc := rfl
@[simp] theorem State.setFld_heldResults (s : State) (a hi lo v : Nat) : (s.setFld a hi lo v).heldResults = s.heldResults := rfl
@[simp] theorem State.setFld_syncHeld (s : State) (a hi lo v : Nat) : (s.setFld a hi lo v).syncHeld = s.syncHeld := rfl
@[simp] theorem State.setFld_copyOp (s : State) (a hi lo v : Nat) : (s.setFld a hi lo v).copyOp = s.copyOp := rfl
@[simp] theorem State.setFld_image (s : State) (a hi lo v : Nat) : (s.setFld a hi lo v).image = s.image := rfl
@[simp] theorem State.setFld_guestNonce (s : State) (a hi lo v : Nat) : (s.setFld a hi lo v).guestNonce = s.guestNonce := rfl
@[simp] theorem State.setFld_opt (s : State) (a hi lo v : Nat) : (s.setFld a hi lo v).opt = s.opt := rfl
@[simp] theorem State.setFld_eeprom (s : State) (a hi lo v : Nat) : (s.setFld a hi lo v).eeprom = s.eeprom := rfl
@[simp] theorem State.setFld_leftOut (s : State) (a hi lo v : Nat) : (s.setFld a hi lo v).leftOut = s.leftOut := rfl
@[simp] theorem State.setFld_hlk (s : State) (a hi lo v : Nat) : (s.setFld a hi lo v).hlk = s.hlk := rfl
@[simp] theorem State.setFld_light (s : State) (a hi lo v : Nat) : (s.setFld a hi lo v).light = s.light := rfl
@[simp] theorem State.setFld_lease (s : State) (a hi lo v : Nat) : (s.setFld a hi lo v).lease = s.lease := rfl
@[simp] theorem State.setFld_pins (s : State) (a hi lo v : Nat) : (s.setFld a hi lo v).pins = s.pins := rfl
@[simp] theorem State.setFld_modeNext (s : State) (a hi lo v : Nat) : (s.setFld a hi lo v).modeNext = s.modeNext := rfl
@[simp] theorem State.setFld_flt (s : State) (a hi lo v : Nat) : (s.setFld a hi lo v).flt = s.flt := rfl
@[simp] theorem State.setFld_boot (s : State) (a hi lo v : Nat) : (s.setFld a hi lo v).boot = s.boot := rfl
@[simp] theorem State.setFld_flash (s : State) (a hi lo v : Nat) : (s.setFld a hi lo v).flash = s.flash := rfl
@[simp] theorem State.setFld_dieOp (s : State) (a hi lo v : Nat) : (s.setFld a hi lo v).dieOp = s.dieOp := rfl
@[simp] theorem State.setFld_recheck (s : State) (a hi lo v : Nat) : (s.setFld a hi lo v).recheck = s.recheck := rfl

/-! ### State.setBit -/

@[simp] theorem State.setBit_pending (s : State) (a b : Nat) (v : Bool) : (s.setBit a b v).pending = s.pending := rfl
@[simp] theorem State.setBit_lowWords (s : State) (a b : Nat) (v : Bool) : (s.setBit a b v).lowWords = s.lowWords := rfl
@[simp] theorem State.setBit_latches (s : State) (a b : Nat) (v : Bool) : (s.setBit a b v).latches = s.latches := rfl
@[simp] theorem State.setBit_mem (s : State) (a b : Nat) (v : Bool) : (s.setBit a b v).mem = s.mem := rfl
@[simp] theorem State.setBit_ecc (s : State) (a b : Nat) (v : Bool) : (s.setBit a b v).ecc = s.ecc := rfl
@[simp] theorem State.setBit_beat (s : State) (a b : Nat) (v : Bool) : (s.setBit a b v).beat = s.beat := rfl
@[simp] theorem State.setBit_clock (s : State) (a b : Nat) (v : Bool) : (s.setBit a b v).clock = s.clock := rfl
@[simp] theorem State.setBit_now (s : State) (a b : Nat) (v : Bool) : (s.setBit a b v).now = s.now := rfl
@[simp] theorem State.setBit_lag (s : State) (a b : Nat) (v : Bool) : (s.setBit a b v).lag = s.lag := rfl
@[simp] theorem State.setBit_freeCtr (s : State) (a b : Nat) (v : Bool) : (s.setBit a b v).freeCtr = s.freeCtr := rfl
@[simp] theorem State.setBit_reports (s : State) (a b : Nat) (v : Bool) : (s.setBit a b v).reports = s.reports := rfl
@[simp] theorem State.setBit_net (s : State) (a b : Nat) (v : Bool) : (s.setBit a b v).net = s.net := rfl
@[simp] theorem State.setBit_flight (s : State) (a b : Nat) (v : Bool) : (s.setBit a b v).flight = s.flight := rfl
@[simp] theorem State.setBit_hostOut (s : State) (a b : Nat) (v : Bool) : (s.setBit a b v).hostOut = s.hostOut := rfl
@[simp] theorem State.setBit_retq (s : State) (a b : Nat) (v : Bool) : (s.setBit a b v).retq = s.retq := rfl
@[simp] theorem State.setBit_x15Host (s : State) (a b : Nat) (v : Bool) : (s.setBit a b v).x15Host = s.x15Host := rfl
@[simp] theorem State.setBit_callers (s : State) (a b : Nat) (v : Bool) : (s.setBit a b v).callers = s.callers := rfl
@[simp] theorem State.setBit_cctx (s : State) (a b : Nat) (v : Bool) : (s.setBit a b v).cctx = s.cctx := rfl
@[simp] theorem State.setBit_wins (s : State) (a b : Nat) (v : Bool) : (s.setBit a b v).wins = s.wins := rfl
@[simp] theorem State.setBit_tagWait (s : State) (a b : Nat) (v : Bool) : (s.setBit a b v).tagWait = s.tagWait := rfl
@[simp] theorem State.setBit_waiters (s : State) (a b : Nat) (v : Bool) : (s.setBit a b v).waiters = s.waiters := rfl
@[simp] theorem State.setBit_cells (s : State) (a b : Nat) (v : Bool) : (s.setBit a b v).cells = s.cells := rfl
@[simp] theorem State.setBit_tlb (s : State) (a b : Nat) (v : Bool) : (s.setBit a b v).tlb = s.tlb := rfl
@[simp] theorem State.setBit_walks (s : State) (a b : Nat) (v : Bool) : (s.setBit a b v).walks = s.walks := rfl
@[simp] theorem State.setBit_segs (s : State) (a b : Nat) (v : Bool) : (s.setBit a b v).segs = s.segs := rfl
@[simp] theorem State.setBit_readReqs (s : State) (a b : Nat) (v : Bool) : (s.setBit a b v).readReqs = s.readReqs := rfl
@[simp] theorem State.setBit_readWait (s : State) (a b : Nat) (v : Bool) : (s.setBit a b v).readWait = s.readWait := rfl
@[simp] theorem State.setBit_ctxs (s : State) (a b : Nat) (v : Bool) : (s.setBit a b v).ctxs = s.ctxs := rfl
@[simp] theorem State.setBit_mesh (s : State) (a b : Nat) (v : Bool) : (s.setBit a b v).mesh = s.mesh := rfl
@[simp] theorem State.setBit_base (s : State) (a b : Nat) (v : Bool) : (s.setBit a b v).base = s.base := rfl
@[simp] theorem State.setBit_dbg (s : State) (a b : Nat) (v : Bool) : (s.setBit a b v).dbg = s.dbg := rfl
@[simp] theorem State.setBit_links (s : State) (a b : Nat) (v : Bool) : (s.setBit a b v).links = s.links := rfl
@[simp] theorem State.setBit_remotes (s : State) (a b : Nat) (v : Bool) : (s.setBit a b v).remotes = s.remotes := rfl
@[simp] theorem State.setBit_nextTag (s : State) (a b : Nat) (v : Bool) : (s.setBit a b v).nextTag = s.nextTag := rfl
@[simp] theorem State.setBit_mc (s : State) (a b : Nat) (v : Bool) : (s.setBit a b v).mc = s.mc := rfl
@[simp] theorem State.setBit_heldResults (s : State) (a b : Nat) (v : Bool) : (s.setBit a b v).heldResults = s.heldResults := rfl
@[simp] theorem State.setBit_syncHeld (s : State) (a b : Nat) (v : Bool) : (s.setBit a b v).syncHeld = s.syncHeld := rfl
@[simp] theorem State.setBit_copyOp (s : State) (a b : Nat) (v : Bool) : (s.setBit a b v).copyOp = s.copyOp := rfl
@[simp] theorem State.setBit_image (s : State) (a b : Nat) (v : Bool) : (s.setBit a b v).image = s.image := rfl
@[simp] theorem State.setBit_guestNonce (s : State) (a b : Nat) (v : Bool) : (s.setBit a b v).guestNonce = s.guestNonce := rfl
@[simp] theorem State.setBit_opt (s : State) (a b : Nat) (v : Bool) : (s.setBit a b v).opt = s.opt := rfl
@[simp] theorem State.setBit_eeprom (s : State) (a b : Nat) (v : Bool) : (s.setBit a b v).eeprom = s.eeprom := rfl
@[simp] theorem State.setBit_leftOut (s : State) (a b : Nat) (v : Bool) : (s.setBit a b v).leftOut = s.leftOut := rfl
@[simp] theorem State.setBit_hlk (s : State) (a b : Nat) (v : Bool) : (s.setBit a b v).hlk = s.hlk := rfl
@[simp] theorem State.setBit_light (s : State) (a b : Nat) (v : Bool) : (s.setBit a b v).light = s.light := rfl
@[simp] theorem State.setBit_lease (s : State) (a b : Nat) (v : Bool) : (s.setBit a b v).lease = s.lease := rfl
@[simp] theorem State.setBit_pins (s : State) (a b : Nat) (v : Bool) : (s.setBit a b v).pins = s.pins := rfl
@[simp] theorem State.setBit_modeNext (s : State) (a b : Nat) (v : Bool) : (s.setBit a b v).modeNext = s.modeNext := rfl
@[simp] theorem State.setBit_flt (s : State) (a b : Nat) (v : Bool) : (s.setBit a b v).flt = s.flt := rfl
@[simp] theorem State.setBit_boot (s : State) (a b : Nat) (v : Bool) : (s.setBit a b v).boot = s.boot := rfl
@[simp] theorem State.setBit_flash (s : State) (a b : Nat) (v : Bool) : (s.setBit a b v).flash = s.flash := rfl
@[simp] theorem State.setBit_dieOp (s : State) (a b : Nat) (v : Bool) : (s.setBit a b v).dieOp = s.dieOp := rfl
@[simp] theorem State.setBit_recheck (s : State) (a b : Nat) (v : Bool) : (s.setBit a b v).recheck = s.recheck := rfl

/-! ### State.count -/

@[simp] theorem State.count_pending (s : State) (a hi lo n : Nat) : (s.count a hi lo n).pending = s.pending := rfl
@[simp] theorem State.count_lowWords (s : State) (a hi lo n : Nat) : (s.count a hi lo n).lowWords = s.lowWords := rfl
@[simp] theorem State.count_latches (s : State) (a hi lo n : Nat) : (s.count a hi lo n).latches = s.latches := rfl
@[simp] theorem State.count_mem (s : State) (a hi lo n : Nat) : (s.count a hi lo n).mem = s.mem := rfl
@[simp] theorem State.count_ecc (s : State) (a hi lo n : Nat) : (s.count a hi lo n).ecc = s.ecc := rfl
@[simp] theorem State.count_beat (s : State) (a hi lo n : Nat) : (s.count a hi lo n).beat = s.beat := rfl
@[simp] theorem State.count_clock (s : State) (a hi lo n : Nat) : (s.count a hi lo n).clock = s.clock := rfl
@[simp] theorem State.count_lag (s : State) (a hi lo n : Nat) : (s.count a hi lo n).lag = s.lag := rfl
@[simp] theorem State.count_freeCtr (s : State) (a hi lo n : Nat) : (s.count a hi lo n).freeCtr = s.freeCtr := rfl
@[simp] theorem State.count_reports (s : State) (a hi lo n : Nat) : (s.count a hi lo n).reports = s.reports := rfl
@[simp] theorem State.count_net (s : State) (a hi lo n : Nat) : (s.count a hi lo n).net = s.net := rfl
@[simp] theorem State.count_flight (s : State) (a hi lo n : Nat) : (s.count a hi lo n).flight = s.flight := rfl
@[simp] theorem State.count_hostOut (s : State) (a hi lo n : Nat) : (s.count a hi lo n).hostOut = s.hostOut := rfl
@[simp] theorem State.count_retq (s : State) (a hi lo n : Nat) : (s.count a hi lo n).retq = s.retq := rfl
@[simp] theorem State.count_x15Host (s : State) (a hi lo n : Nat) : (s.count a hi lo n).x15Host = s.x15Host := rfl
@[simp] theorem State.count_callers (s : State) (a hi lo n : Nat) : (s.count a hi lo n).callers = s.callers := rfl
@[simp] theorem State.count_cctx (s : State) (a hi lo n : Nat) : (s.count a hi lo n).cctx = s.cctx := rfl
@[simp] theorem State.count_wins (s : State) (a hi lo n : Nat) : (s.count a hi lo n).wins = s.wins := rfl
@[simp] theorem State.count_tagWait (s : State) (a hi lo n : Nat) : (s.count a hi lo n).tagWait = s.tagWait := rfl
@[simp] theorem State.count_waiters (s : State) (a hi lo n : Nat) : (s.count a hi lo n).waiters = s.waiters := rfl
@[simp] theorem State.count_cells (s : State) (a hi lo n : Nat) : (s.count a hi lo n).cells = s.cells := rfl
@[simp] theorem State.count_tlb (s : State) (a hi lo n : Nat) : (s.count a hi lo n).tlb = s.tlb := rfl
@[simp] theorem State.count_walks (s : State) (a hi lo n : Nat) : (s.count a hi lo n).walks = s.walks := rfl
@[simp] theorem State.count_segs (s : State) (a hi lo n : Nat) : (s.count a hi lo n).segs = s.segs := rfl
@[simp] theorem State.count_readReqs (s : State) (a hi lo n : Nat) : (s.count a hi lo n).readReqs = s.readReqs := rfl
@[simp] theorem State.count_readWait (s : State) (a hi lo n : Nat) : (s.count a hi lo n).readWait = s.readWait := rfl
@[simp] theorem State.count_ctxs (s : State) (a hi lo n : Nat) : (s.count a hi lo n).ctxs = s.ctxs := rfl
@[simp] theorem State.count_mesh (s : State) (a hi lo n : Nat) : (s.count a hi lo n).mesh = s.mesh := rfl
@[simp] theorem State.count_base (s : State) (a hi lo n : Nat) : (s.count a hi lo n).base = s.base := rfl
@[simp] theorem State.count_dbg (s : State) (a hi lo n : Nat) : (s.count a hi lo n).dbg = s.dbg := rfl
@[simp] theorem State.count_links (s : State) (a hi lo n : Nat) : (s.count a hi lo n).links = s.links := rfl
@[simp] theorem State.count_remotes (s : State) (a hi lo n : Nat) : (s.count a hi lo n).remotes = s.remotes := rfl
@[simp] theorem State.count_nextTag (s : State) (a hi lo n : Nat) : (s.count a hi lo n).nextTag = s.nextTag := rfl
@[simp] theorem State.count_mc (s : State) (a hi lo n : Nat) : (s.count a hi lo n).mc = s.mc := rfl
@[simp] theorem State.count_heldResults (s : State) (a hi lo n : Nat) : (s.count a hi lo n).heldResults = s.heldResults := rfl
@[simp] theorem State.count_syncHeld (s : State) (a hi lo n : Nat) : (s.count a hi lo n).syncHeld = s.syncHeld := rfl
@[simp] theorem State.count_copyOp (s : State) (a hi lo n : Nat) : (s.count a hi lo n).copyOp = s.copyOp := rfl
@[simp] theorem State.count_image (s : State) (a hi lo n : Nat) : (s.count a hi lo n).image = s.image := rfl
@[simp] theorem State.count_guestNonce (s : State) (a hi lo n : Nat) : (s.count a hi lo n).guestNonce = s.guestNonce := rfl
@[simp] theorem State.count_opt (s : State) (a hi lo n : Nat) : (s.count a hi lo n).opt = s.opt := rfl
@[simp] theorem State.count_eeprom (s : State) (a hi lo n : Nat) : (s.count a hi lo n).eeprom = s.eeprom := rfl
@[simp] theorem State.count_leftOut (s : State) (a hi lo n : Nat) : (s.count a hi lo n).leftOut = s.leftOut := rfl
@[simp] theorem State.count_hlk (s : State) (a hi lo n : Nat) : (s.count a hi lo n).hlk = s.hlk := rfl
@[simp] theorem State.count_light (s : State) (a hi lo n : Nat) : (s.count a hi lo n).light = s.light := rfl
@[simp] theorem State.count_lease (s : State) (a hi lo n : Nat) : (s.count a hi lo n).lease = s.lease := rfl
@[simp] theorem State.count_pins (s : State) (a hi lo n : Nat) : (s.count a hi lo n).pins = s.pins := rfl
@[simp] theorem State.count_modeNext (s : State) (a hi lo n : Nat) : (s.count a hi lo n).modeNext = s.modeNext := rfl
@[simp] theorem State.count_flt (s : State) (a hi lo n : Nat) : (s.count a hi lo n).flt = s.flt := rfl
@[simp] theorem State.count_boot (s : State) (a hi lo n : Nat) : (s.count a hi lo n).boot = s.boot := rfl
@[simp] theorem State.count_flash (s : State) (a hi lo n : Nat) : (s.count a hi lo n).flash = s.flash := rfl
@[simp] theorem State.count_dieOp (s : State) (a hi lo n : Nat) : (s.count a hi lo n).dieOp = s.dieOp := rfl
@[simp] theorem State.count_recheck (s : State) (a hi lo n : Nat) : (s.count a hi lo n).recheck = s.recheck := rfl

/-! ### State.flags -/

@[simp] theorem State.flags_pending (s : State) (a : Nat) (m : Word) : (s.flags a m).pending = s.pending := rfl
@[simp] theorem State.flags_lowWords (s : State) (a : Nat) (m : Word) : (s.flags a m).lowWords = s.lowWords := rfl
@[simp] theorem State.flags_latches (s : State) (a : Nat) (m : Word) : (s.flags a m).latches = s.latches := rfl
@[simp] theorem State.flags_mem (s : State) (a : Nat) (m : Word) : (s.flags a m).mem = s.mem := rfl
@[simp] theorem State.flags_ecc (s : State) (a : Nat) (m : Word) : (s.flags a m).ecc = s.ecc := rfl
@[simp] theorem State.flags_beat (s : State) (a : Nat) (m : Word) : (s.flags a m).beat = s.beat := rfl
@[simp] theorem State.flags_clock (s : State) (a : Nat) (m : Word) : (s.flags a m).clock = s.clock := rfl
@[simp] theorem State.flags_lag (s : State) (a : Nat) (m : Word) : (s.flags a m).lag = s.lag := rfl
@[simp] theorem State.flags_freeCtr (s : State) (a : Nat) (m : Word) : (s.flags a m).freeCtr = s.freeCtr := rfl
@[simp] theorem State.flags_reports (s : State) (a : Nat) (m : Word) : (s.flags a m).reports = s.reports := rfl
@[simp] theorem State.flags_net (s : State) (a : Nat) (m : Word) : (s.flags a m).net = s.net := rfl
@[simp] theorem State.flags_flight (s : State) (a : Nat) (m : Word) : (s.flags a m).flight = s.flight := rfl
@[simp] theorem State.flags_hostOut (s : State) (a : Nat) (m : Word) : (s.flags a m).hostOut = s.hostOut := rfl
@[simp] theorem State.flags_retq (s : State) (a : Nat) (m : Word) : (s.flags a m).retq = s.retq := rfl
@[simp] theorem State.flags_x15Host (s : State) (a : Nat) (m : Word) : (s.flags a m).x15Host = s.x15Host := rfl
@[simp] theorem State.flags_callers (s : State) (a : Nat) (m : Word) : (s.flags a m).callers = s.callers := rfl
@[simp] theorem State.flags_cctx (s : State) (a : Nat) (m : Word) : (s.flags a m).cctx = s.cctx := rfl
@[simp] theorem State.flags_wins (s : State) (a : Nat) (m : Word) : (s.flags a m).wins = s.wins := rfl
@[simp] theorem State.flags_tagWait (s : State) (a : Nat) (m : Word) : (s.flags a m).tagWait = s.tagWait := rfl
@[simp] theorem State.flags_waiters (s : State) (a : Nat) (m : Word) : (s.flags a m).waiters = s.waiters := rfl
@[simp] theorem State.flags_cells (s : State) (a : Nat) (m : Word) : (s.flags a m).cells = s.cells := rfl
@[simp] theorem State.flags_tlb (s : State) (a : Nat) (m : Word) : (s.flags a m).tlb = s.tlb := rfl
@[simp] theorem State.flags_walks (s : State) (a : Nat) (m : Word) : (s.flags a m).walks = s.walks := rfl
@[simp] theorem State.flags_segs (s : State) (a : Nat) (m : Word) : (s.flags a m).segs = s.segs := rfl
@[simp] theorem State.flags_readReqs (s : State) (a : Nat) (m : Word) : (s.flags a m).readReqs = s.readReqs := rfl
@[simp] theorem State.flags_readWait (s : State) (a : Nat) (m : Word) : (s.flags a m).readWait = s.readWait := rfl
@[simp] theorem State.flags_ctxs (s : State) (a : Nat) (m : Word) : (s.flags a m).ctxs = s.ctxs := rfl
@[simp] theorem State.flags_mesh (s : State) (a : Nat) (m : Word) : (s.flags a m).mesh = s.mesh := rfl
@[simp] theorem State.flags_base (s : State) (a : Nat) (m : Word) : (s.flags a m).base = s.base := rfl
@[simp] theorem State.flags_dbg (s : State) (a : Nat) (m : Word) : (s.flags a m).dbg = s.dbg := rfl
@[simp] theorem State.flags_links (s : State) (a : Nat) (m : Word) : (s.flags a m).links = s.links := rfl
@[simp] theorem State.flags_remotes (s : State) (a : Nat) (m : Word) : (s.flags a m).remotes = s.remotes := rfl
@[simp] theorem State.flags_nextTag (s : State) (a : Nat) (m : Word) : (s.flags a m).nextTag = s.nextTag := rfl
@[simp] theorem State.flags_mc (s : State) (a : Nat) (m : Word) : (s.flags a m).mc = s.mc := rfl
@[simp] theorem State.flags_heldResults (s : State) (a : Nat) (m : Word) : (s.flags a m).heldResults = s.heldResults := rfl
@[simp] theorem State.flags_syncHeld (s : State) (a : Nat) (m : Word) : (s.flags a m).syncHeld = s.syncHeld := rfl
@[simp] theorem State.flags_copyOp (s : State) (a : Nat) (m : Word) : (s.flags a m).copyOp = s.copyOp := rfl
@[simp] theorem State.flags_image (s : State) (a : Nat) (m : Word) : (s.flags a m).image = s.image := rfl
@[simp] theorem State.flags_guestNonce (s : State) (a : Nat) (m : Word) : (s.flags a m).guestNonce = s.guestNonce := rfl
@[simp] theorem State.flags_opt (s : State) (a : Nat) (m : Word) : (s.flags a m).opt = s.opt := rfl
@[simp] theorem State.flags_eeprom (s : State) (a : Nat) (m : Word) : (s.flags a m).eeprom = s.eeprom := rfl
@[simp] theorem State.flags_leftOut (s : State) (a : Nat) (m : Word) : (s.flags a m).leftOut = s.leftOut := rfl
@[simp] theorem State.flags_hlk (s : State) (a : Nat) (m : Word) : (s.flags a m).hlk = s.hlk := rfl
@[simp] theorem State.flags_light (s : State) (a : Nat) (m : Word) : (s.flags a m).light = s.light := rfl
@[simp] theorem State.flags_lease (s : State) (a : Nat) (m : Word) : (s.flags a m).lease = s.lease := rfl
@[simp] theorem State.flags_pins (s : State) (a : Nat) (m : Word) : (s.flags a m).pins = s.pins := rfl
@[simp] theorem State.flags_modeNext (s : State) (a : Nat) (m : Word) : (s.flags a m).modeNext = s.modeNext := rfl
@[simp] theorem State.flags_flt (s : State) (a : Nat) (m : Word) : (s.flags a m).flt = s.flt := rfl
@[simp] theorem State.flags_boot (s : State) (a : Nat) (m : Word) : (s.flags a m).boot = s.boot := rfl
@[simp] theorem State.flags_flash (s : State) (a : Nat) (m : Word) : (s.flags a m).flash = s.flash := rfl
@[simp] theorem State.flags_dieOp (s : State) (a : Nat) (m : Word) : (s.flags a m).dieOp = s.dieOp := rfl
@[simp] theorem State.flags_recheck (s : State) (a : Nat) (m : Word) : (s.flags a m).recheck = s.recheck := rfl

/-! ### State.flag -/

@[simp] theorem State.flag_pending (s : State) (a b : Nat) : (s.flag a b).pending = s.pending := rfl
@[simp] theorem State.flag_lowWords (s : State) (a b : Nat) : (s.flag a b).lowWords = s.lowWords := rfl
@[simp] theorem State.flag_latches (s : State) (a b : Nat) : (s.flag a b).latches = s.latches := rfl
@[simp] theorem State.flag_mem (s : State) (a b : Nat) : (s.flag a b).mem = s.mem := rfl
@[simp] theorem State.flag_ecc (s : State) (a b : Nat) : (s.flag a b).ecc = s.ecc := rfl
@[simp] theorem State.flag_beat (s : State) (a b : Nat) : (s.flag a b).beat = s.beat := rfl
@[simp] theorem State.flag_clock (s : State) (a b : Nat) : (s.flag a b).clock = s.clock := rfl
@[simp] theorem State.flag_lag (s : State) (a b : Nat) : (s.flag a b).lag = s.lag := rfl
@[simp] theorem State.flag_freeCtr (s : State) (a b : Nat) : (s.flag a b).freeCtr = s.freeCtr := rfl
@[simp] theorem State.flag_reports (s : State) (a b : Nat) : (s.flag a b).reports = s.reports := rfl
@[simp] theorem State.flag_net (s : State) (a b : Nat) : (s.flag a b).net = s.net := rfl
@[simp] theorem State.flag_flight (s : State) (a b : Nat) : (s.flag a b).flight = s.flight := rfl
@[simp] theorem State.flag_hostOut (s : State) (a b : Nat) : (s.flag a b).hostOut = s.hostOut := rfl
@[simp] theorem State.flag_retq (s : State) (a b : Nat) : (s.flag a b).retq = s.retq := rfl
@[simp] theorem State.flag_x15Host (s : State) (a b : Nat) : (s.flag a b).x15Host = s.x15Host := rfl
@[simp] theorem State.flag_callers (s : State) (a b : Nat) : (s.flag a b).callers = s.callers := rfl
@[simp] theorem State.flag_cctx (s : State) (a b : Nat) : (s.flag a b).cctx = s.cctx := rfl
@[simp] theorem State.flag_wins (s : State) (a b : Nat) : (s.flag a b).wins = s.wins := rfl
@[simp] theorem State.flag_tagWait (s : State) (a b : Nat) : (s.flag a b).tagWait = s.tagWait := rfl
@[simp] theorem State.flag_waiters (s : State) (a b : Nat) : (s.flag a b).waiters = s.waiters := rfl
@[simp] theorem State.flag_cells (s : State) (a b : Nat) : (s.flag a b).cells = s.cells := rfl
@[simp] theorem State.flag_tlb (s : State) (a b : Nat) : (s.flag a b).tlb = s.tlb := rfl
@[simp] theorem State.flag_walks (s : State) (a b : Nat) : (s.flag a b).walks = s.walks := rfl
@[simp] theorem State.flag_segs (s : State) (a b : Nat) : (s.flag a b).segs = s.segs := rfl
@[simp] theorem State.flag_readReqs (s : State) (a b : Nat) : (s.flag a b).readReqs = s.readReqs := rfl
@[simp] theorem State.flag_readWait (s : State) (a b : Nat) : (s.flag a b).readWait = s.readWait := rfl
@[simp] theorem State.flag_ctxs (s : State) (a b : Nat) : (s.flag a b).ctxs = s.ctxs := rfl
@[simp] theorem State.flag_mesh (s : State) (a b : Nat) : (s.flag a b).mesh = s.mesh := rfl
@[simp] theorem State.flag_base (s : State) (a b : Nat) : (s.flag a b).base = s.base := rfl
@[simp] theorem State.flag_dbg (s : State) (a b : Nat) : (s.flag a b).dbg = s.dbg := rfl
@[simp] theorem State.flag_links (s : State) (a b : Nat) : (s.flag a b).links = s.links := rfl
@[simp] theorem State.flag_remotes (s : State) (a b : Nat) : (s.flag a b).remotes = s.remotes := rfl
@[simp] theorem State.flag_nextTag (s : State) (a b : Nat) : (s.flag a b).nextTag = s.nextTag := rfl
@[simp] theorem State.flag_mc (s : State) (a b : Nat) : (s.flag a b).mc = s.mc := rfl
@[simp] theorem State.flag_heldResults (s : State) (a b : Nat) : (s.flag a b).heldResults = s.heldResults := rfl
@[simp] theorem State.flag_syncHeld (s : State) (a b : Nat) : (s.flag a b).syncHeld = s.syncHeld := rfl
@[simp] theorem State.flag_copyOp (s : State) (a b : Nat) : (s.flag a b).copyOp = s.copyOp := rfl
@[simp] theorem State.flag_image (s : State) (a b : Nat) : (s.flag a b).image = s.image := rfl
@[simp] theorem State.flag_guestNonce (s : State) (a b : Nat) : (s.flag a b).guestNonce = s.guestNonce := rfl
@[simp] theorem State.flag_opt (s : State) (a b : Nat) : (s.flag a b).opt = s.opt := rfl
@[simp] theorem State.flag_eeprom (s : State) (a b : Nat) : (s.flag a b).eeprom = s.eeprom := rfl
@[simp] theorem State.flag_leftOut (s : State) (a b : Nat) : (s.flag a b).leftOut = s.leftOut := rfl
@[simp] theorem State.flag_hlk (s : State) (a b : Nat) : (s.flag a b).hlk = s.hlk := rfl
@[simp] theorem State.flag_light (s : State) (a b : Nat) : (s.flag a b).light = s.light := rfl
@[simp] theorem State.flag_lease (s : State) (a b : Nat) : (s.flag a b).lease = s.lease := rfl
@[simp] theorem State.flag_pins (s : State) (a b : Nat) : (s.flag a b).pins = s.pins := rfl
@[simp] theorem State.flag_modeNext (s : State) (a b : Nat) : (s.flag a b).modeNext = s.modeNext := rfl
@[simp] theorem State.flag_flt (s : State) (a b : Nat) : (s.flag a b).flt = s.flt := rfl
@[simp] theorem State.flag_boot (s : State) (a b : Nat) : (s.flag a b).boot = s.boot := rfl
@[simp] theorem State.flag_flash (s : State) (a b : Nat) : (s.flag a b).flash = s.flash := rfl
@[simp] theorem State.flag_dieOp (s : State) (a b : Nat) : (s.flag a b).dieOp = s.dieOp := rfl
@[simp] theorem State.flag_recheck (s : State) (a b : Nat) : (s.flag a b).recheck = s.recheck := rfl

/-! ### State.capture -/

@[simp] theorem State.capture_pending (s : State) (a : Nat) (v : Word) : (s.capture a v).pending = s.pending := rfl
@[simp] theorem State.capture_lowWords (s : State) (a : Nat) (v : Word) : (s.capture a v).lowWords = s.lowWords := rfl
@[simp] theorem State.capture_latches (s : State) (a : Nat) (v : Word) : (s.capture a v).latches = s.latches := rfl
@[simp] theorem State.capture_mem (s : State) (a : Nat) (v : Word) : (s.capture a v).mem = s.mem := rfl
@[simp] theorem State.capture_ecc (s : State) (a : Nat) (v : Word) : (s.capture a v).ecc = s.ecc := rfl
@[simp] theorem State.capture_beat (s : State) (a : Nat) (v : Word) : (s.capture a v).beat = s.beat := rfl
@[simp] theorem State.capture_clock (s : State) (a : Nat) (v : Word) : (s.capture a v).clock = s.clock := rfl
@[simp] theorem State.capture_lag (s : State) (a : Nat) (v : Word) : (s.capture a v).lag = s.lag := rfl
@[simp] theorem State.capture_freeCtr (s : State) (a : Nat) (v : Word) : (s.capture a v).freeCtr = s.freeCtr := rfl
@[simp] theorem State.capture_reports (s : State) (a : Nat) (v : Word) : (s.capture a v).reports = s.reports := rfl
@[simp] theorem State.capture_net (s : State) (a : Nat) (v : Word) : (s.capture a v).net = s.net := rfl
@[simp] theorem State.capture_flight (s : State) (a : Nat) (v : Word) : (s.capture a v).flight = s.flight := rfl
@[simp] theorem State.capture_hostOut (s : State) (a : Nat) (v : Word) : (s.capture a v).hostOut = s.hostOut := rfl
@[simp] theorem State.capture_retq (s : State) (a : Nat) (v : Word) : (s.capture a v).retq = s.retq := rfl
@[simp] theorem State.capture_x15Host (s : State) (a : Nat) (v : Word) : (s.capture a v).x15Host = s.x15Host := rfl
@[simp] theorem State.capture_callers (s : State) (a : Nat) (v : Word) : (s.capture a v).callers = s.callers := rfl
@[simp] theorem State.capture_cctx (s : State) (a : Nat) (v : Word) : (s.capture a v).cctx = s.cctx := rfl
@[simp] theorem State.capture_wins (s : State) (a : Nat) (v : Word) : (s.capture a v).wins = s.wins := rfl
@[simp] theorem State.capture_tagWait (s : State) (a : Nat) (v : Word) : (s.capture a v).tagWait = s.tagWait := rfl
@[simp] theorem State.capture_waiters (s : State) (a : Nat) (v : Word) : (s.capture a v).waiters = s.waiters := rfl
@[simp] theorem State.capture_cells (s : State) (a : Nat) (v : Word) : (s.capture a v).cells = s.cells := rfl
@[simp] theorem State.capture_tlb (s : State) (a : Nat) (v : Word) : (s.capture a v).tlb = s.tlb := rfl
@[simp] theorem State.capture_walks (s : State) (a : Nat) (v : Word) : (s.capture a v).walks = s.walks := rfl
@[simp] theorem State.capture_segs (s : State) (a : Nat) (v : Word) : (s.capture a v).segs = s.segs := rfl
@[simp] theorem State.capture_readReqs (s : State) (a : Nat) (v : Word) : (s.capture a v).readReqs = s.readReqs := rfl
@[simp] theorem State.capture_readWait (s : State) (a : Nat) (v : Word) : (s.capture a v).readWait = s.readWait := rfl
@[simp] theorem State.capture_ctxs (s : State) (a : Nat) (v : Word) : (s.capture a v).ctxs = s.ctxs := rfl
@[simp] theorem State.capture_mesh (s : State) (a : Nat) (v : Word) : (s.capture a v).mesh = s.mesh := rfl
@[simp] theorem State.capture_base (s : State) (a : Nat) (v : Word) : (s.capture a v).base = s.base := rfl
@[simp] theorem State.capture_dbg (s : State) (a : Nat) (v : Word) : (s.capture a v).dbg = s.dbg := rfl
@[simp] theorem State.capture_links (s : State) (a : Nat) (v : Word) : (s.capture a v).links = s.links := rfl
@[simp] theorem State.capture_remotes (s : State) (a : Nat) (v : Word) : (s.capture a v).remotes = s.remotes := rfl
@[simp] theorem State.capture_nextTag (s : State) (a : Nat) (v : Word) : (s.capture a v).nextTag = s.nextTag := rfl
@[simp] theorem State.capture_mc (s : State) (a : Nat) (v : Word) : (s.capture a v).mc = s.mc := rfl
@[simp] theorem State.capture_heldResults (s : State) (a : Nat) (v : Word) : (s.capture a v).heldResults = s.heldResults := rfl
@[simp] theorem State.capture_syncHeld (s : State) (a : Nat) (v : Word) : (s.capture a v).syncHeld = s.syncHeld := rfl
@[simp] theorem State.capture_copyOp (s : State) (a : Nat) (v : Word) : (s.capture a v).copyOp = s.copyOp := rfl
@[simp] theorem State.capture_image (s : State) (a : Nat) (v : Word) : (s.capture a v).image = s.image := rfl
@[simp] theorem State.capture_guestNonce (s : State) (a : Nat) (v : Word) : (s.capture a v).guestNonce = s.guestNonce := rfl
@[simp] theorem State.capture_opt (s : State) (a : Nat) (v : Word) : (s.capture a v).opt = s.opt := rfl
@[simp] theorem State.capture_eeprom (s : State) (a : Nat) (v : Word) : (s.capture a v).eeprom = s.eeprom := rfl
@[simp] theorem State.capture_leftOut (s : State) (a : Nat) (v : Word) : (s.capture a v).leftOut = s.leftOut := rfl
@[simp] theorem State.capture_hlk (s : State) (a : Nat) (v : Word) : (s.capture a v).hlk = s.hlk := rfl
@[simp] theorem State.capture_light (s : State) (a : Nat) (v : Word) : (s.capture a v).light = s.light := rfl
@[simp] theorem State.capture_lease (s : State) (a : Nat) (v : Word) : (s.capture a v).lease = s.lease := rfl
@[simp] theorem State.capture_pins (s : State) (a : Nat) (v : Word) : (s.capture a v).pins = s.pins := rfl
@[simp] theorem State.capture_modeNext (s : State) (a : Nat) (v : Word) : (s.capture a v).modeNext = s.modeNext := rfl
@[simp] theorem State.capture_flt (s : State) (a : Nat) (v : Word) : (s.capture a v).flt = s.flt := rfl
@[simp] theorem State.capture_boot (s : State) (a : Nat) (v : Word) : (s.capture a v).boot = s.boot := rfl
@[simp] theorem State.capture_flash (s : State) (a : Nat) (v : Word) : (s.capture a v).flash = s.flash := rfl
@[simp] theorem State.capture_dieOp (s : State) (a : Nat) (v : Word) : (s.capture a v).dieOp = s.dieOp := rfl
@[simp] theorem State.capture_recheck (s : State) (a : Nat) (v : Word) : (s.capture a v).recheck = s.recheck := rfl

/-! ### State.report -/

@[simp] theorem State.report_pending (s : State) (r : FaultReport) : (s.report r).pending = s.pending := rfl
@[simp] theorem State.report_regs (s : State) (r : FaultReport) : (s.report r).regs = s.regs := rfl
@[simp] theorem State.report_lowWords (s : State) (r : FaultReport) : (s.report r).lowWords = s.lowWords := rfl
@[simp] theorem State.report_latches (s : State) (r : FaultReport) : (s.report r).latches = s.latches := rfl
@[simp] theorem State.report_mem (s : State) (r : FaultReport) : (s.report r).mem = s.mem := rfl
@[simp] theorem State.report_ecc (s : State) (r : FaultReport) : (s.report r).ecc = s.ecc := rfl
@[simp] theorem State.report_beat (s : State) (r : FaultReport) : (s.report r).beat = s.beat := rfl
@[simp] theorem State.report_clock (s : State) (r : FaultReport) : (s.report r).clock = s.clock := rfl
@[simp] theorem State.report_now (s : State) (r : FaultReport) : (s.report r).now = s.now := rfl
@[simp] theorem State.report_lag (s : State) (r : FaultReport) : (s.report r).lag = s.lag := rfl
@[simp] theorem State.report_freeCtr (s : State) (r : FaultReport) : (s.report r).freeCtr = s.freeCtr := rfl
@[simp] theorem State.report_net (s : State) (r : FaultReport) : (s.report r).net = s.net := rfl
@[simp] theorem State.report_flight (s : State) (r : FaultReport) : (s.report r).flight = s.flight := rfl
@[simp] theorem State.report_hostOut (s : State) (r : FaultReport) : (s.report r).hostOut = s.hostOut := rfl
@[simp] theorem State.report_retq (s : State) (r : FaultReport) : (s.report r).retq = s.retq := rfl
@[simp] theorem State.report_x15Host (s : State) (r : FaultReport) : (s.report r).x15Host = s.x15Host := rfl
@[simp] theorem State.report_callers (s : State) (r : FaultReport) : (s.report r).callers = s.callers := rfl
@[simp] theorem State.report_cctx (s : State) (r : FaultReport) : (s.report r).cctx = s.cctx := rfl
@[simp] theorem State.report_wins (s : State) (r : FaultReport) : (s.report r).wins = s.wins := rfl
@[simp] theorem State.report_tagWait (s : State) (r : FaultReport) : (s.report r).tagWait = s.tagWait := rfl
@[simp] theorem State.report_waiters (s : State) (r : FaultReport) : (s.report r).waiters = s.waiters := rfl
@[simp] theorem State.report_cells (s : State) (r : FaultReport) : (s.report r).cells = s.cells := rfl
@[simp] theorem State.report_tlb (s : State) (r : FaultReport) : (s.report r).tlb = s.tlb := rfl
@[simp] theorem State.report_walks (s : State) (r : FaultReport) : (s.report r).walks = s.walks := rfl
@[simp] theorem State.report_segs (s : State) (r : FaultReport) : (s.report r).segs = s.segs := rfl
@[simp] theorem State.report_readReqs (s : State) (r : FaultReport) : (s.report r).readReqs = s.readReqs := rfl
@[simp] theorem State.report_readWait (s : State) (r : FaultReport) : (s.report r).readWait = s.readWait := rfl
@[simp] theorem State.report_ctxs (s : State) (r : FaultReport) : (s.report r).ctxs = s.ctxs := rfl
@[simp] theorem State.report_mesh (s : State) (r : FaultReport) : (s.report r).mesh = s.mesh := rfl
@[simp] theorem State.report_base (s : State) (r : FaultReport) : (s.report r).base = s.base := rfl
@[simp] theorem State.report_dbg (s : State) (r : FaultReport) : (s.report r).dbg = s.dbg := rfl
@[simp] theorem State.report_links (s : State) (r : FaultReport) : (s.report r).links = s.links := rfl
@[simp] theorem State.report_remotes (s : State) (r : FaultReport) : (s.report r).remotes = s.remotes := rfl
@[simp] theorem State.report_nextTag (s : State) (r : FaultReport) : (s.report r).nextTag = s.nextTag := rfl
@[simp] theorem State.report_mc (s : State) (r : FaultReport) : (s.report r).mc = s.mc := rfl
@[simp] theorem State.report_heldResults (s : State) (r : FaultReport) : (s.report r).heldResults = s.heldResults := rfl
@[simp] theorem State.report_syncHeld (s : State) (r : FaultReport) : (s.report r).syncHeld = s.syncHeld := rfl
@[simp] theorem State.report_copyOp (s : State) (r : FaultReport) : (s.report r).copyOp = s.copyOp := rfl
@[simp] theorem State.report_image (s : State) (r : FaultReport) : (s.report r).image = s.image := rfl
@[simp] theorem State.report_guestNonce (s : State) (r : FaultReport) : (s.report r).guestNonce = s.guestNonce := rfl
@[simp] theorem State.report_opt (s : State) (r : FaultReport) : (s.report r).opt = s.opt := rfl
@[simp] theorem State.report_eeprom (s : State) (r : FaultReport) : (s.report r).eeprom = s.eeprom := rfl
@[simp] theorem State.report_leftOut (s : State) (r : FaultReport) : (s.report r).leftOut = s.leftOut := rfl
@[simp] theorem State.report_hlk (s : State) (r : FaultReport) : (s.report r).hlk = s.hlk := rfl
@[simp] theorem State.report_light (s : State) (r : FaultReport) : (s.report r).light = s.light := rfl
@[simp] theorem State.report_lease (s : State) (r : FaultReport) : (s.report r).lease = s.lease := rfl
@[simp] theorem State.report_pins (s : State) (r : FaultReport) : (s.report r).pins = s.pins := rfl
@[simp] theorem State.report_modeNext (s : State) (r : FaultReport) : (s.report r).modeNext = s.modeNext := rfl
@[simp] theorem State.report_flt (s : State) (r : FaultReport) : (s.report r).flt = s.flt := rfl
@[simp] theorem State.report_boot (s : State) (r : FaultReport) : (s.report r).boot = s.boot := rfl
@[simp] theorem State.report_flash (s : State) (r : FaultReport) : (s.report r).flash = s.flash := rfl
@[simp] theorem State.report_dieOp (s : State) (r : FaultReport) : (s.report r).dieOp = s.dieOp := rfl
@[simp] theorem State.report_recheck (s : State) (r : FaultReport) : (s.report r).recheck = s.recheck := rfl

/-! ### State.send -/

@[simp] theorem State.send_pending (s : State) (m : Msg) : (s.send m).pending = s.pending := rfl
@[simp] theorem State.send_regs (s : State) (m : Msg) : (s.send m).regs = s.regs := rfl
@[simp] theorem State.send_lowWords (s : State) (m : Msg) : (s.send m).lowWords = s.lowWords := rfl
@[simp] theorem State.send_latches (s : State) (m : Msg) : (s.send m).latches = s.latches := rfl
@[simp] theorem State.send_mem (s : State) (m : Msg) : (s.send m).mem = s.mem := rfl
@[simp] theorem State.send_ecc (s : State) (m : Msg) : (s.send m).ecc = s.ecc := rfl
@[simp] theorem State.send_beat (s : State) (m : Msg) : (s.send m).beat = s.beat := rfl
@[simp] theorem State.send_clock (s : State) (m : Msg) : (s.send m).clock = s.clock := rfl
@[simp] theorem State.send_now (s : State) (m : Msg) : (s.send m).now = s.now := rfl
@[simp] theorem State.send_lag (s : State) (m : Msg) : (s.send m).lag = s.lag := rfl
@[simp] theorem State.send_freeCtr (s : State) (m : Msg) : (s.send m).freeCtr = s.freeCtr := rfl
@[simp] theorem State.send_reports (s : State) (m : Msg) : (s.send m).reports = s.reports := rfl
@[simp] theorem State.send_flight (s : State) (m : Msg) : (s.send m).flight = s.flight := rfl
@[simp] theorem State.send_hostOut (s : State) (m : Msg) : (s.send m).hostOut = s.hostOut := rfl
@[simp] theorem State.send_retq (s : State) (m : Msg) : (s.send m).retq = s.retq := rfl
@[simp] theorem State.send_x15Host (s : State) (m : Msg) : (s.send m).x15Host = s.x15Host := rfl
@[simp] theorem State.send_callers (s : State) (m : Msg) : (s.send m).callers = s.callers := rfl
@[simp] theorem State.send_cctx (s : State) (m : Msg) : (s.send m).cctx = s.cctx := rfl
@[simp] theorem State.send_wins (s : State) (m : Msg) : (s.send m).wins = s.wins := rfl
@[simp] theorem State.send_tagWait (s : State) (m : Msg) : (s.send m).tagWait = s.tagWait := rfl
@[simp] theorem State.send_waiters (s : State) (m : Msg) : (s.send m).waiters = s.waiters := rfl
@[simp] theorem State.send_cells (s : State) (m : Msg) : (s.send m).cells = s.cells := rfl
@[simp] theorem State.send_tlb (s : State) (m : Msg) : (s.send m).tlb = s.tlb := rfl
@[simp] theorem State.send_walks (s : State) (m : Msg) : (s.send m).walks = s.walks := rfl
@[simp] theorem State.send_segs (s : State) (m : Msg) : (s.send m).segs = s.segs := rfl
@[simp] theorem State.send_readReqs (s : State) (m : Msg) : (s.send m).readReqs = s.readReqs := rfl
@[simp] theorem State.send_readWait (s : State) (m : Msg) : (s.send m).readWait = s.readWait := rfl
@[simp] theorem State.send_ctxs (s : State) (m : Msg) : (s.send m).ctxs = s.ctxs := rfl
@[simp] theorem State.send_mesh (s : State) (m : Msg) : (s.send m).mesh = s.mesh := rfl
@[simp] theorem State.send_dbg (s : State) (m : Msg) : (s.send m).dbg = s.dbg := rfl
@[simp] theorem State.send_links (s : State) (m : Msg) : (s.send m).links = s.links := rfl
@[simp] theorem State.send_remotes (s : State) (m : Msg) : (s.send m).remotes = s.remotes := rfl
@[simp] theorem State.send_nextTag (s : State) (m : Msg) : (s.send m).nextTag = s.nextTag := rfl
@[simp] theorem State.send_mc (s : State) (m : Msg) : (s.send m).mc = s.mc := rfl
@[simp] theorem State.send_heldResults (s : State) (m : Msg) : (s.send m).heldResults = s.heldResults := rfl
@[simp] theorem State.send_syncHeld (s : State) (m : Msg) : (s.send m).syncHeld = s.syncHeld := rfl
@[simp] theorem State.send_copyOp (s : State) (m : Msg) : (s.send m).copyOp = s.copyOp := rfl
@[simp] theorem State.send_image (s : State) (m : Msg) : (s.send m).image = s.image := rfl
@[simp] theorem State.send_guestNonce (s : State) (m : Msg) : (s.send m).guestNonce = s.guestNonce := rfl
@[simp] theorem State.send_opt (s : State) (m : Msg) : (s.send m).opt = s.opt := rfl
@[simp] theorem State.send_eeprom (s : State) (m : Msg) : (s.send m).eeprom = s.eeprom := rfl
@[simp] theorem State.send_leftOut (s : State) (m : Msg) : (s.send m).leftOut = s.leftOut := rfl
@[simp] theorem State.send_hlk (s : State) (m : Msg) : (s.send m).hlk = s.hlk := rfl
@[simp] theorem State.send_light (s : State) (m : Msg) : (s.send m).light = s.light := rfl
@[simp] theorem State.send_lease (s : State) (m : Msg) : (s.send m).lease = s.lease := rfl
@[simp] theorem State.send_pins (s : State) (m : Msg) : (s.send m).pins = s.pins := rfl
@[simp] theorem State.send_modeNext (s : State) (m : Msg) : (s.send m).modeNext = s.modeNext := rfl
@[simp] theorem State.send_flt (s : State) (m : Msg) : (s.send m).flt = s.flt := rfl
@[simp] theorem State.send_boot (s : State) (m : Msg) : (s.send m).boot = s.boot := rfl
@[simp] theorem State.send_flash (s : State) (m : Msg) : (s.send m).flash = s.flash := rfl
@[simp] theorem State.send_dieOp (s : State) (m : Msg) : (s.send m).dieOp = s.dieOp := rfl
@[simp] theorem State.send_recheck (s : State) (m : Msg) : (s.send m).recheck = s.recheck := rfl

/-! ### State.take -/

@[simp] theorem State.take_pending (s : State) (m : Msg) : (s.take m).pending = s.pending := rfl
@[simp] theorem State.take_regs (s : State) (m : Msg) : (s.take m).regs = s.regs := rfl
@[simp] theorem State.take_lowWords (s : State) (m : Msg) : (s.take m).lowWords = s.lowWords := rfl
@[simp] theorem State.take_latches (s : State) (m : Msg) : (s.take m).latches = s.latches := rfl
@[simp] theorem State.take_mem (s : State) (m : Msg) : (s.take m).mem = s.mem := rfl
@[simp] theorem State.take_ecc (s : State) (m : Msg) : (s.take m).ecc = s.ecc := rfl
@[simp] theorem State.take_beat (s : State) (m : Msg) : (s.take m).beat = s.beat := rfl
@[simp] theorem State.take_clock (s : State) (m : Msg) : (s.take m).clock = s.clock := rfl
@[simp] theorem State.take_now (s : State) (m : Msg) : (s.take m).now = s.now := rfl
@[simp] theorem State.take_lag (s : State) (m : Msg) : (s.take m).lag = s.lag := rfl
@[simp] theorem State.take_freeCtr (s : State) (m : Msg) : (s.take m).freeCtr = s.freeCtr := rfl
@[simp] theorem State.take_reports (s : State) (m : Msg) : (s.take m).reports = s.reports := rfl
@[simp] theorem State.take_flight (s : State) (m : Msg) : (s.take m).flight = s.flight := rfl
@[simp] theorem State.take_hostOut (s : State) (m : Msg) : (s.take m).hostOut = s.hostOut := rfl
@[simp] theorem State.take_retq (s : State) (m : Msg) : (s.take m).retq = s.retq := rfl
@[simp] theorem State.take_x15Host (s : State) (m : Msg) : (s.take m).x15Host = s.x15Host := rfl
@[simp] theorem State.take_callers (s : State) (m : Msg) : (s.take m).callers = s.callers := rfl
@[simp] theorem State.take_cctx (s : State) (m : Msg) : (s.take m).cctx = s.cctx := rfl
@[simp] theorem State.take_wins (s : State) (m : Msg) : (s.take m).wins = s.wins := rfl
@[simp] theorem State.take_tagWait (s : State) (m : Msg) : (s.take m).tagWait = s.tagWait := rfl
@[simp] theorem State.take_waiters (s : State) (m : Msg) : (s.take m).waiters = s.waiters := rfl
@[simp] theorem State.take_cells (s : State) (m : Msg) : (s.take m).cells = s.cells := rfl
@[simp] theorem State.take_tlb (s : State) (m : Msg) : (s.take m).tlb = s.tlb := rfl
@[simp] theorem State.take_walks (s : State) (m : Msg) : (s.take m).walks = s.walks := rfl
@[simp] theorem State.take_segs (s : State) (m : Msg) : (s.take m).segs = s.segs := rfl
@[simp] theorem State.take_readReqs (s : State) (m : Msg) : (s.take m).readReqs = s.readReqs := rfl
@[simp] theorem State.take_readWait (s : State) (m : Msg) : (s.take m).readWait = s.readWait := rfl
@[simp] theorem State.take_ctxs (s : State) (m : Msg) : (s.take m).ctxs = s.ctxs := rfl
@[simp] theorem State.take_mesh (s : State) (m : Msg) : (s.take m).mesh = s.mesh := rfl
@[simp] theorem State.take_base (s : State) (m : Msg) : (s.take m).base = s.base := rfl
@[simp] theorem State.take_dbg (s : State) (m : Msg) : (s.take m).dbg = s.dbg := rfl
@[simp] theorem State.take_links (s : State) (m : Msg) : (s.take m).links = s.links := rfl
@[simp] theorem State.take_remotes (s : State) (m : Msg) : (s.take m).remotes = s.remotes := rfl
@[simp] theorem State.take_nextTag (s : State) (m : Msg) : (s.take m).nextTag = s.nextTag := rfl
@[simp] theorem State.take_mc (s : State) (m : Msg) : (s.take m).mc = s.mc := rfl
@[simp] theorem State.take_heldResults (s : State) (m : Msg) : (s.take m).heldResults = s.heldResults := rfl
@[simp] theorem State.take_syncHeld (s : State) (m : Msg) : (s.take m).syncHeld = s.syncHeld := rfl
@[simp] theorem State.take_copyOp (s : State) (m : Msg) : (s.take m).copyOp = s.copyOp := rfl
@[simp] theorem State.take_image (s : State) (m : Msg) : (s.take m).image = s.image := rfl
@[simp] theorem State.take_guestNonce (s : State) (m : Msg) : (s.take m).guestNonce = s.guestNonce := rfl
@[simp] theorem State.take_opt (s : State) (m : Msg) : (s.take m).opt = s.opt := rfl
@[simp] theorem State.take_eeprom (s : State) (m : Msg) : (s.take m).eeprom = s.eeprom := rfl
@[simp] theorem State.take_leftOut (s : State) (m : Msg) : (s.take m).leftOut = s.leftOut := rfl
@[simp] theorem State.take_hlk (s : State) (m : Msg) : (s.take m).hlk = s.hlk := rfl
@[simp] theorem State.take_light (s : State) (m : Msg) : (s.take m).light = s.light := rfl
@[simp] theorem State.take_lease (s : State) (m : Msg) : (s.take m).lease = s.lease := rfl
@[simp] theorem State.take_pins (s : State) (m : Msg) : (s.take m).pins = s.pins := rfl
@[simp] theorem State.take_modeNext (s : State) (m : Msg) : (s.take m).modeNext = s.modeNext := rfl
@[simp] theorem State.take_flt (s : State) (m : Msg) : (s.take m).flt = s.flt := rfl
@[simp] theorem State.take_boot (s : State) (m : Msg) : (s.take m).boot = s.boot := rfl
@[simp] theorem State.take_flash (s : State) (m : Msg) : (s.take m).flash = s.flash := rfl
@[simp] theorem State.take_dieOp (s : State) (m : Msg) : (s.take m).dieOp = s.dieOp := rfl
@[simp] theorem State.take_recheck (s : State) (m : Msg) : (s.take m).recheck = s.recheck := rfl

/-! ### State.tookFree -/

@[simp] theorem State.tookFree_pending (s : State) : (s.tookFree).pending = s.pending := rfl
@[simp] theorem State.tookFree_regs (s : State) : (s.tookFree).regs = s.regs := rfl
@[simp] theorem State.tookFree_lowWords (s : State) : (s.tookFree).lowWords = s.lowWords := rfl
@[simp] theorem State.tookFree_latches (s : State) : (s.tookFree).latches = s.latches := rfl
@[simp] theorem State.tookFree_mem (s : State) : (s.tookFree).mem = s.mem := rfl
@[simp] theorem State.tookFree_ecc (s : State) : (s.tookFree).ecc = s.ecc := rfl
@[simp] theorem State.tookFree_beat (s : State) : (s.tookFree).beat = s.beat := rfl
@[simp] theorem State.tookFree_clock (s : State) : (s.tookFree).clock = s.clock := rfl
@[simp] theorem State.tookFree_now (s : State) : (s.tookFree).now = s.now := rfl
@[simp] theorem State.tookFree_lag (s : State) : (s.tookFree).lag = s.lag := rfl
@[simp] theorem State.tookFree_reports (s : State) : (s.tookFree).reports = s.reports := rfl
@[simp] theorem State.tookFree_net (s : State) : (s.tookFree).net = s.net := rfl
@[simp] theorem State.tookFree_flight (s : State) : (s.tookFree).flight = s.flight := rfl
@[simp] theorem State.tookFree_hostOut (s : State) : (s.tookFree).hostOut = s.hostOut := rfl
@[simp] theorem State.tookFree_retq (s : State) : (s.tookFree).retq = s.retq := rfl
@[simp] theorem State.tookFree_x15Host (s : State) : (s.tookFree).x15Host = s.x15Host := rfl
@[simp] theorem State.tookFree_callers (s : State) : (s.tookFree).callers = s.callers := rfl
@[simp] theorem State.tookFree_cctx (s : State) : (s.tookFree).cctx = s.cctx := rfl
@[simp] theorem State.tookFree_wins (s : State) : (s.tookFree).wins = s.wins := rfl
@[simp] theorem State.tookFree_tagWait (s : State) : (s.tookFree).tagWait = s.tagWait := rfl
@[simp] theorem State.tookFree_waiters (s : State) : (s.tookFree).waiters = s.waiters := rfl
@[simp] theorem State.tookFree_cells (s : State) : (s.tookFree).cells = s.cells := rfl
@[simp] theorem State.tookFree_tlb (s : State) : (s.tookFree).tlb = s.tlb := rfl
@[simp] theorem State.tookFree_walks (s : State) : (s.tookFree).walks = s.walks := rfl
@[simp] theorem State.tookFree_segs (s : State) : (s.tookFree).segs = s.segs := rfl
@[simp] theorem State.tookFree_readReqs (s : State) : (s.tookFree).readReqs = s.readReqs := rfl
@[simp] theorem State.tookFree_readWait (s : State) : (s.tookFree).readWait = s.readWait := rfl
@[simp] theorem State.tookFree_ctxs (s : State) : (s.tookFree).ctxs = s.ctxs := rfl
@[simp] theorem State.tookFree_mesh (s : State) : (s.tookFree).mesh = s.mesh := rfl
@[simp] theorem State.tookFree_base (s : State) : (s.tookFree).base = s.base := rfl
@[simp] theorem State.tookFree_dbg (s : State) : (s.tookFree).dbg = s.dbg := rfl
@[simp] theorem State.tookFree_links (s : State) : (s.tookFree).links = s.links := rfl
@[simp] theorem State.tookFree_remotes (s : State) : (s.tookFree).remotes = s.remotes := rfl
@[simp] theorem State.tookFree_nextTag (s : State) : (s.tookFree).nextTag = s.nextTag := rfl
@[simp] theorem State.tookFree_mc (s : State) : (s.tookFree).mc = s.mc := rfl
@[simp] theorem State.tookFree_heldResults (s : State) : (s.tookFree).heldResults = s.heldResults := rfl
@[simp] theorem State.tookFree_syncHeld (s : State) : (s.tookFree).syncHeld = s.syncHeld := rfl
@[simp] theorem State.tookFree_copyOp (s : State) : (s.tookFree).copyOp = s.copyOp := rfl
@[simp] theorem State.tookFree_image (s : State) : (s.tookFree).image = s.image := rfl
@[simp] theorem State.tookFree_guestNonce (s : State) : (s.tookFree).guestNonce = s.guestNonce := rfl
@[simp] theorem State.tookFree_opt (s : State) : (s.tookFree).opt = s.opt := rfl
@[simp] theorem State.tookFree_eeprom (s : State) : (s.tookFree).eeprom = s.eeprom := rfl
@[simp] theorem State.tookFree_leftOut (s : State) : (s.tookFree).leftOut = s.leftOut := rfl
@[simp] theorem State.tookFree_hlk (s : State) : (s.tookFree).hlk = s.hlk := rfl
@[simp] theorem State.tookFree_light (s : State) : (s.tookFree).light = s.light := rfl
@[simp] theorem State.tookFree_lease (s : State) : (s.tookFree).lease = s.lease := rfl
@[simp] theorem State.tookFree_pins (s : State) : (s.tookFree).pins = s.pins := rfl
@[simp] theorem State.tookFree_modeNext (s : State) : (s.tookFree).modeNext = s.modeNext := rfl
@[simp] theorem State.tookFree_flt (s : State) : (s.tookFree).flt = s.flt := rfl
@[simp] theorem State.tookFree_boot (s : State) : (s.tookFree).boot = s.boot := rfl
@[simp] theorem State.tookFree_flash (s : State) : (s.tookFree).flash = s.flash := rfl
@[simp] theorem State.tookFree_dieOp (s : State) : (s.tookFree).dieOp = s.dieOp := rfl
@[simp] theorem State.tookFree_recheck (s : State) : (s.tookFree).recheck = s.recheck := rfl

/-! ### State.poke -/

@[simp] theorem State.poke_pending (s : State) (pa : Nat) (bs : List Byte) : (s.poke pa bs).pending = s.pending := rfl
@[simp] theorem State.poke_regs (s : State) (pa : Nat) (bs : List Byte) : (s.poke pa bs).regs = s.regs := rfl
@[simp] theorem State.poke_lowWords (s : State) (pa : Nat) (bs : List Byte) : (s.poke pa bs).lowWords = s.lowWords := rfl
@[simp] theorem State.poke_latches (s : State) (pa : Nat) (bs : List Byte) : (s.poke pa bs).latches = s.latches := rfl
@[simp] theorem State.poke_ecc (s : State) (pa : Nat) (bs : List Byte) : (s.poke pa bs).ecc = s.ecc := rfl
@[simp] theorem State.poke_beat (s : State) (pa : Nat) (bs : List Byte) : (s.poke pa bs).beat = s.beat := rfl
@[simp] theorem State.poke_clock (s : State) (pa : Nat) (bs : List Byte) : (s.poke pa bs).clock = s.clock := rfl
@[simp] theorem State.poke_now (s : State) (pa : Nat) (bs : List Byte) : (s.poke pa bs).now = s.now := rfl
@[simp] theorem State.poke_lag (s : State) (pa : Nat) (bs : List Byte) : (s.poke pa bs).lag = s.lag := rfl
@[simp] theorem State.poke_freeCtr (s : State) (pa : Nat) (bs : List Byte) : (s.poke pa bs).freeCtr = s.freeCtr := rfl
@[simp] theorem State.poke_reports (s : State) (pa : Nat) (bs : List Byte) : (s.poke pa bs).reports = s.reports := rfl
@[simp] theorem State.poke_net (s : State) (pa : Nat) (bs : List Byte) : (s.poke pa bs).net = s.net := rfl
@[simp] theorem State.poke_flight (s : State) (pa : Nat) (bs : List Byte) : (s.poke pa bs).flight = s.flight := rfl
@[simp] theorem State.poke_hostOut (s : State) (pa : Nat) (bs : List Byte) : (s.poke pa bs).hostOut = s.hostOut := rfl
@[simp] theorem State.poke_retq (s : State) (pa : Nat) (bs : List Byte) : (s.poke pa bs).retq = s.retq := rfl
@[simp] theorem State.poke_x15Host (s : State) (pa : Nat) (bs : List Byte) : (s.poke pa bs).x15Host = s.x15Host := rfl
@[simp] theorem State.poke_callers (s : State) (pa : Nat) (bs : List Byte) : (s.poke pa bs).callers = s.callers := rfl
@[simp] theorem State.poke_cctx (s : State) (pa : Nat) (bs : List Byte) : (s.poke pa bs).cctx = s.cctx := rfl
@[simp] theorem State.poke_wins (s : State) (pa : Nat) (bs : List Byte) : (s.poke pa bs).wins = s.wins := rfl
@[simp] theorem State.poke_tagWait (s : State) (pa : Nat) (bs : List Byte) : (s.poke pa bs).tagWait = s.tagWait := rfl
@[simp] theorem State.poke_waiters (s : State) (pa : Nat) (bs : List Byte) : (s.poke pa bs).waiters = s.waiters := rfl
@[simp] theorem State.poke_cells (s : State) (pa : Nat) (bs : List Byte) : (s.poke pa bs).cells = s.cells := rfl
@[simp] theorem State.poke_tlb (s : State) (pa : Nat) (bs : List Byte) : (s.poke pa bs).tlb = s.tlb := rfl
@[simp] theorem State.poke_walks (s : State) (pa : Nat) (bs : List Byte) : (s.poke pa bs).walks = s.walks := rfl
@[simp] theorem State.poke_segs (s : State) (pa : Nat) (bs : List Byte) : (s.poke pa bs).segs = s.segs := rfl
@[simp] theorem State.poke_readReqs (s : State) (pa : Nat) (bs : List Byte) : (s.poke pa bs).readReqs = s.readReqs := rfl
@[simp] theorem State.poke_readWait (s : State) (pa : Nat) (bs : List Byte) : (s.poke pa bs).readWait = s.readWait := rfl
@[simp] theorem State.poke_ctxs (s : State) (pa : Nat) (bs : List Byte) : (s.poke pa bs).ctxs = s.ctxs := rfl
@[simp] theorem State.poke_mesh (s : State) (pa : Nat) (bs : List Byte) : (s.poke pa bs).mesh = s.mesh := rfl
@[simp] theorem State.poke_base (s : State) (pa : Nat) (bs : List Byte) : (s.poke pa bs).base = s.base := rfl
@[simp] theorem State.poke_dbg (s : State) (pa : Nat) (bs : List Byte) : (s.poke pa bs).dbg = s.dbg := rfl
@[simp] theorem State.poke_links (s : State) (pa : Nat) (bs : List Byte) : (s.poke pa bs).links = s.links := rfl
@[simp] theorem State.poke_remotes (s : State) (pa : Nat) (bs : List Byte) : (s.poke pa bs).remotes = s.remotes := rfl
@[simp] theorem State.poke_nextTag (s : State) (pa : Nat) (bs : List Byte) : (s.poke pa bs).nextTag = s.nextTag := rfl
@[simp] theorem State.poke_mc (s : State) (pa : Nat) (bs : List Byte) : (s.poke pa bs).mc = s.mc := rfl
@[simp] theorem State.poke_heldResults (s : State) (pa : Nat) (bs : List Byte) : (s.poke pa bs).heldResults = s.heldResults := rfl
@[simp] theorem State.poke_syncHeld (s : State) (pa : Nat) (bs : List Byte) : (s.poke pa bs).syncHeld = s.syncHeld := rfl
@[simp] theorem State.poke_copyOp (s : State) (pa : Nat) (bs : List Byte) : (s.poke pa bs).copyOp = s.copyOp := rfl
@[simp] theorem State.poke_image (s : State) (pa : Nat) (bs : List Byte) : (s.poke pa bs).image = s.image := rfl
@[simp] theorem State.poke_guestNonce (s : State) (pa : Nat) (bs : List Byte) : (s.poke pa bs).guestNonce = s.guestNonce := rfl
@[simp] theorem State.poke_opt (s : State) (pa : Nat) (bs : List Byte) : (s.poke pa bs).opt = s.opt := rfl
@[simp] theorem State.poke_eeprom (s : State) (pa : Nat) (bs : List Byte) : (s.poke pa bs).eeprom = s.eeprom := rfl
@[simp] theorem State.poke_leftOut (s : State) (pa : Nat) (bs : List Byte) : (s.poke pa bs).leftOut = s.leftOut := rfl
@[simp] theorem State.poke_hlk (s : State) (pa : Nat) (bs : List Byte) : (s.poke pa bs).hlk = s.hlk := rfl
@[simp] theorem State.poke_light (s : State) (pa : Nat) (bs : List Byte) : (s.poke pa bs).light = s.light := rfl
@[simp] theorem State.poke_lease (s : State) (pa : Nat) (bs : List Byte) : (s.poke pa bs).lease = s.lease := rfl
@[simp] theorem State.poke_pins (s : State) (pa : Nat) (bs : List Byte) : (s.poke pa bs).pins = s.pins := rfl
@[simp] theorem State.poke_modeNext (s : State) (pa : Nat) (bs : List Byte) : (s.poke pa bs).modeNext = s.modeNext := rfl
@[simp] theorem State.poke_flt (s : State) (pa : Nat) (bs : List Byte) : (s.poke pa bs).flt = s.flt := rfl
@[simp] theorem State.poke_boot (s : State) (pa : Nat) (bs : List Byte) : (s.poke pa bs).boot = s.boot := rfl
@[simp] theorem State.poke_flash (s : State) (pa : Nat) (bs : List Byte) : (s.poke pa bs).flash = s.flash := rfl
@[simp] theorem State.poke_dieOp (s : State) (pa : Nat) (bs : List Byte) : (s.poke pa bs).dieOp = s.dieOp := rfl
@[simp] theorem State.poke_recheck (s : State) (pa : Nat) (bs : List Byte) : (s.poke pa bs).recheck = s.recheck := rfl

/-! ### State.setEcc -/

@[simp] theorem State.setEcc_pending (s : State) (pa w : Nat) : (s.setEcc pa w).pending = s.pending := rfl
@[simp] theorem State.setEcc_regs (s : State) (pa w : Nat) : (s.setEcc pa w).regs = s.regs := rfl
@[simp] theorem State.setEcc_lowWords (s : State) (pa w : Nat) : (s.setEcc pa w).lowWords = s.lowWords := rfl
@[simp] theorem State.setEcc_latches (s : State) (pa w : Nat) : (s.setEcc pa w).latches = s.latches := rfl
@[simp] theorem State.setEcc_mem (s : State) (pa w : Nat) : (s.setEcc pa w).mem = s.mem := rfl
@[simp] theorem State.setEcc_beat (s : State) (pa w : Nat) : (s.setEcc pa w).beat = s.beat := rfl
@[simp] theorem State.setEcc_clock (s : State) (pa w : Nat) : (s.setEcc pa w).clock = s.clock := rfl
@[simp] theorem State.setEcc_now (s : State) (pa w : Nat) : (s.setEcc pa w).now = s.now := rfl
@[simp] theorem State.setEcc_lag (s : State) (pa w : Nat) : (s.setEcc pa w).lag = s.lag := rfl
@[simp] theorem State.setEcc_freeCtr (s : State) (pa w : Nat) : (s.setEcc pa w).freeCtr = s.freeCtr := rfl
@[simp] theorem State.setEcc_reports (s : State) (pa w : Nat) : (s.setEcc pa w).reports = s.reports := rfl
@[simp] theorem State.setEcc_net (s : State) (pa w : Nat) : (s.setEcc pa w).net = s.net := rfl
@[simp] theorem State.setEcc_flight (s : State) (pa w : Nat) : (s.setEcc pa w).flight = s.flight := rfl
@[simp] theorem State.setEcc_hostOut (s : State) (pa w : Nat) : (s.setEcc pa w).hostOut = s.hostOut := rfl
@[simp] theorem State.setEcc_retq (s : State) (pa w : Nat) : (s.setEcc pa w).retq = s.retq := rfl
@[simp] theorem State.setEcc_x15Host (s : State) (pa w : Nat) : (s.setEcc pa w).x15Host = s.x15Host := rfl
@[simp] theorem State.setEcc_callers (s : State) (pa w : Nat) : (s.setEcc pa w).callers = s.callers := rfl
@[simp] theorem State.setEcc_cctx (s : State) (pa w : Nat) : (s.setEcc pa w).cctx = s.cctx := rfl
@[simp] theorem State.setEcc_wins (s : State) (pa w : Nat) : (s.setEcc pa w).wins = s.wins := rfl
@[simp] theorem State.setEcc_tagWait (s : State) (pa w : Nat) : (s.setEcc pa w).tagWait = s.tagWait := rfl
@[simp] theorem State.setEcc_waiters (s : State) (pa w : Nat) : (s.setEcc pa w).waiters = s.waiters := rfl
@[simp] theorem State.setEcc_cells (s : State) (pa w : Nat) : (s.setEcc pa w).cells = s.cells := rfl
@[simp] theorem State.setEcc_tlb (s : State) (pa w : Nat) : (s.setEcc pa w).tlb = s.tlb := rfl
@[simp] theorem State.setEcc_walks (s : State) (pa w : Nat) : (s.setEcc pa w).walks = s.walks := rfl
@[simp] theorem State.setEcc_segs (s : State) (pa w : Nat) : (s.setEcc pa w).segs = s.segs := rfl
@[simp] theorem State.setEcc_readReqs (s : State) (pa w : Nat) : (s.setEcc pa w).readReqs = s.readReqs := rfl
@[simp] theorem State.setEcc_readWait (s : State) (pa w : Nat) : (s.setEcc pa w).readWait = s.readWait := rfl
@[simp] theorem State.setEcc_ctxs (s : State) (pa w : Nat) : (s.setEcc pa w).ctxs = s.ctxs := rfl
@[simp] theorem State.setEcc_mesh (s : State) (pa w : Nat) : (s.setEcc pa w).mesh = s.mesh := rfl
@[simp] theorem State.setEcc_base (s : State) (pa w : Nat) : (s.setEcc pa w).base = s.base := rfl
@[simp] theorem State.setEcc_dbg (s : State) (pa w : Nat) : (s.setEcc pa w).dbg = s.dbg := rfl
@[simp] theorem State.setEcc_links (s : State) (pa w : Nat) : (s.setEcc pa w).links = s.links := rfl
@[simp] theorem State.setEcc_remotes (s : State) (pa w : Nat) : (s.setEcc pa w).remotes = s.remotes := rfl
@[simp] theorem State.setEcc_nextTag (s : State) (pa w : Nat) : (s.setEcc pa w).nextTag = s.nextTag := rfl
@[simp] theorem State.setEcc_mc (s : State) (pa w : Nat) : (s.setEcc pa w).mc = s.mc := rfl
@[simp] theorem State.setEcc_heldResults (s : State) (pa w : Nat) : (s.setEcc pa w).heldResults = s.heldResults := rfl
@[simp] theorem State.setEcc_syncHeld (s : State) (pa w : Nat) : (s.setEcc pa w).syncHeld = s.syncHeld := rfl
@[simp] theorem State.setEcc_copyOp (s : State) (pa w : Nat) : (s.setEcc pa w).copyOp = s.copyOp := rfl
@[simp] theorem State.setEcc_image (s : State) (pa w : Nat) : (s.setEcc pa w).image = s.image := rfl
@[simp] theorem State.setEcc_guestNonce (s : State) (pa w : Nat) : (s.setEcc pa w).guestNonce = s.guestNonce := rfl
@[simp] theorem State.setEcc_opt (s : State) (pa w : Nat) : (s.setEcc pa w).opt = s.opt := rfl
@[simp] theorem State.setEcc_eeprom (s : State) (pa w : Nat) : (s.setEcc pa w).eeprom = s.eeprom := rfl
@[simp] theorem State.setEcc_leftOut (s : State) (pa w : Nat) : (s.setEcc pa w).leftOut = s.leftOut := rfl
@[simp] theorem State.setEcc_hlk (s : State) (pa w : Nat) : (s.setEcc pa w).hlk = s.hlk := rfl
@[simp] theorem State.setEcc_light (s : State) (pa w : Nat) : (s.setEcc pa w).light = s.light := rfl
@[simp] theorem State.setEcc_lease (s : State) (pa w : Nat) : (s.setEcc pa w).lease = s.lease := rfl
@[simp] theorem State.setEcc_pins (s : State) (pa w : Nat) : (s.setEcc pa w).pins = s.pins := rfl
@[simp] theorem State.setEcc_modeNext (s : State) (pa w : Nat) : (s.setEcc pa w).modeNext = s.modeNext := rfl
@[simp] theorem State.setEcc_flt (s : State) (pa w : Nat) : (s.setEcc pa w).flt = s.flt := rfl
@[simp] theorem State.setEcc_boot (s : State) (pa w : Nat) : (s.setEcc pa w).boot = s.boot := rfl
@[simp] theorem State.setEcc_flash (s : State) (pa w : Nat) : (s.setEcc pa w).flash = s.flash := rfl
@[simp] theorem State.setEcc_dieOp (s : State) (pa w : Nat) : (s.setEcc pa w).dieOp = s.dieOp := rfl
@[simp] theorem State.setEcc_recheck (s : State) (pa w : Nat) : (s.setEcc pa w).recheck = s.recheck := rfl

/-! ### State.clearEcc -/

@[simp] theorem State.clearEcc_pending (s : State) (w n : Nat) : (s.clearEcc w n).pending = s.pending := rfl
@[simp] theorem State.clearEcc_regs (s : State) (w n : Nat) : (s.clearEcc w n).regs = s.regs := rfl
@[simp] theorem State.clearEcc_lowWords (s : State) (w n : Nat) : (s.clearEcc w n).lowWords = s.lowWords := rfl
@[simp] theorem State.clearEcc_latches (s : State) (w n : Nat) : (s.clearEcc w n).latches = s.latches := rfl
@[simp] theorem State.clearEcc_mem (s : State) (w n : Nat) : (s.clearEcc w n).mem = s.mem := rfl
@[simp] theorem State.clearEcc_beat (s : State) (w n : Nat) : (s.clearEcc w n).beat = s.beat := rfl
@[simp] theorem State.clearEcc_clock (s : State) (w n : Nat) : (s.clearEcc w n).clock = s.clock := rfl
@[simp] theorem State.clearEcc_now (s : State) (w n : Nat) : (s.clearEcc w n).now = s.now := rfl
@[simp] theorem State.clearEcc_lag (s : State) (w n : Nat) : (s.clearEcc w n).lag = s.lag := rfl
@[simp] theorem State.clearEcc_freeCtr (s : State) (w n : Nat) : (s.clearEcc w n).freeCtr = s.freeCtr := rfl
@[simp] theorem State.clearEcc_reports (s : State) (w n : Nat) : (s.clearEcc w n).reports = s.reports := rfl
@[simp] theorem State.clearEcc_net (s : State) (w n : Nat) : (s.clearEcc w n).net = s.net := rfl
@[simp] theorem State.clearEcc_flight (s : State) (w n : Nat) : (s.clearEcc w n).flight = s.flight := rfl
@[simp] theorem State.clearEcc_hostOut (s : State) (w n : Nat) : (s.clearEcc w n).hostOut = s.hostOut := rfl
@[simp] theorem State.clearEcc_retq (s : State) (w n : Nat) : (s.clearEcc w n).retq = s.retq := rfl
@[simp] theorem State.clearEcc_x15Host (s : State) (w n : Nat) : (s.clearEcc w n).x15Host = s.x15Host := rfl
@[simp] theorem State.clearEcc_callers (s : State) (w n : Nat) : (s.clearEcc w n).callers = s.callers := rfl
@[simp] theorem State.clearEcc_cctx (s : State) (w n : Nat) : (s.clearEcc w n).cctx = s.cctx := rfl
@[simp] theorem State.clearEcc_wins (s : State) (w n : Nat) : (s.clearEcc w n).wins = s.wins := rfl
@[simp] theorem State.clearEcc_tagWait (s : State) (w n : Nat) : (s.clearEcc w n).tagWait = s.tagWait := rfl
@[simp] theorem State.clearEcc_waiters (s : State) (w n : Nat) : (s.clearEcc w n).waiters = s.waiters := rfl
@[simp] theorem State.clearEcc_cells (s : State) (w n : Nat) : (s.clearEcc w n).cells = s.cells := rfl
@[simp] theorem State.clearEcc_tlb (s : State) (w n : Nat) : (s.clearEcc w n).tlb = s.tlb := rfl
@[simp] theorem State.clearEcc_walks (s : State) (w n : Nat) : (s.clearEcc w n).walks = s.walks := rfl
@[simp] theorem State.clearEcc_segs (s : State) (w n : Nat) : (s.clearEcc w n).segs = s.segs := rfl
@[simp] theorem State.clearEcc_readReqs (s : State) (w n : Nat) : (s.clearEcc w n).readReqs = s.readReqs := rfl
@[simp] theorem State.clearEcc_readWait (s : State) (w n : Nat) : (s.clearEcc w n).readWait = s.readWait := rfl
@[simp] theorem State.clearEcc_ctxs (s : State) (w n : Nat) : (s.clearEcc w n).ctxs = s.ctxs := rfl
@[simp] theorem State.clearEcc_mesh (s : State) (w n : Nat) : (s.clearEcc w n).mesh = s.mesh := rfl
@[simp] theorem State.clearEcc_base (s : State) (w n : Nat) : (s.clearEcc w n).base = s.base := rfl
@[simp] theorem State.clearEcc_dbg (s : State) (w n : Nat) : (s.clearEcc w n).dbg = s.dbg := rfl
@[simp] theorem State.clearEcc_links (s : State) (w n : Nat) : (s.clearEcc w n).links = s.links := rfl
@[simp] theorem State.clearEcc_remotes (s : State) (w n : Nat) : (s.clearEcc w n).remotes = s.remotes := rfl
@[simp] theorem State.clearEcc_nextTag (s : State) (w n : Nat) : (s.clearEcc w n).nextTag = s.nextTag := rfl
@[simp] theorem State.clearEcc_mc (s : State) (w n : Nat) : (s.clearEcc w n).mc = s.mc := rfl
@[simp] theorem State.clearEcc_heldResults (s : State) (w n : Nat) : (s.clearEcc w n).heldResults = s.heldResults := rfl
@[simp] theorem State.clearEcc_syncHeld (s : State) (w n : Nat) : (s.clearEcc w n).syncHeld = s.syncHeld := rfl
@[simp] theorem State.clearEcc_copyOp (s : State) (w n : Nat) : (s.clearEcc w n).copyOp = s.copyOp := rfl
@[simp] theorem State.clearEcc_image (s : State) (w n : Nat) : (s.clearEcc w n).image = s.image := rfl
@[simp] theorem State.clearEcc_guestNonce (s : State) (w n : Nat) : (s.clearEcc w n).guestNonce = s.guestNonce := rfl
@[simp] theorem State.clearEcc_opt (s : State) (w n : Nat) : (s.clearEcc w n).opt = s.opt := rfl
@[simp] theorem State.clearEcc_eeprom (s : State) (w n : Nat) : (s.clearEcc w n).eeprom = s.eeprom := rfl
@[simp] theorem State.clearEcc_leftOut (s : State) (w n : Nat) : (s.clearEcc w n).leftOut = s.leftOut := rfl
@[simp] theorem State.clearEcc_hlk (s : State) (w n : Nat) : (s.clearEcc w n).hlk = s.hlk := rfl
@[simp] theorem State.clearEcc_light (s : State) (w n : Nat) : (s.clearEcc w n).light = s.light := rfl
@[simp] theorem State.clearEcc_lease (s : State) (w n : Nat) : (s.clearEcc w n).lease = s.lease := rfl
@[simp] theorem State.clearEcc_pins (s : State) (w n : Nat) : (s.clearEcc w n).pins = s.pins := rfl
@[simp] theorem State.clearEcc_modeNext (s : State) (w n : Nat) : (s.clearEcc w n).modeNext = s.modeNext := rfl
@[simp] theorem State.clearEcc_flt (s : State) (w n : Nat) : (s.clearEcc w n).flt = s.flt := rfl
@[simp] theorem State.clearEcc_boot (s : State) (w n : Nat) : (s.clearEcc w n).boot = s.boot := rfl
@[simp] theorem State.clearEcc_flash (s : State) (w n : Nat) : (s.clearEcc w n).flash = s.flash := rfl
@[simp] theorem State.clearEcc_dieOp (s : State) (w n : Nat) : (s.clearEcc w n).dieOp = s.dieOp := rfl
@[simp] theorem State.clearEcc_recheck (s : State) (w n : Nat) : (s.clearEcc w n).recheck = s.recheck := rfl

/-! ### State.setCaller -/

@[simp] theorem State.setCaller_pending (s : State) (d : DieId) (k : CallerId) (c : Caller) : (s.setCaller d k c).pending = s.pending := rfl
@[simp] theorem State.setCaller_regs (s : State) (d : DieId) (k : CallerId) (c : Caller) : (s.setCaller d k c).regs = s.regs := rfl
@[simp] theorem State.setCaller_lowWords (s : State) (d : DieId) (k : CallerId) (c : Caller) : (s.setCaller d k c).lowWords = s.lowWords := rfl
@[simp] theorem State.setCaller_latches (s : State) (d : DieId) (k : CallerId) (c : Caller) : (s.setCaller d k c).latches = s.latches := rfl
@[simp] theorem State.setCaller_mem (s : State) (d : DieId) (k : CallerId) (c : Caller) : (s.setCaller d k c).mem = s.mem := rfl
@[simp] theorem State.setCaller_ecc (s : State) (d : DieId) (k : CallerId) (c : Caller) : (s.setCaller d k c).ecc = s.ecc := rfl
@[simp] theorem State.setCaller_beat (s : State) (d : DieId) (k : CallerId) (c : Caller) : (s.setCaller d k c).beat = s.beat := rfl
@[simp] theorem State.setCaller_clock (s : State) (d : DieId) (k : CallerId) (c : Caller) : (s.setCaller d k c).clock = s.clock := rfl
@[simp] theorem State.setCaller_now (s : State) (d : DieId) (k : CallerId) (c : Caller) : (s.setCaller d k c).now = s.now := rfl
@[simp] theorem State.setCaller_lag (s : State) (d : DieId) (k : CallerId) (c : Caller) : (s.setCaller d k c).lag = s.lag := rfl
@[simp] theorem State.setCaller_freeCtr (s : State) (d : DieId) (k : CallerId) (c : Caller) : (s.setCaller d k c).freeCtr = s.freeCtr := rfl
@[simp] theorem State.setCaller_reports (s : State) (d : DieId) (k : CallerId) (c : Caller) : (s.setCaller d k c).reports = s.reports := rfl
@[simp] theorem State.setCaller_net (s : State) (d : DieId) (k : CallerId) (c : Caller) : (s.setCaller d k c).net = s.net := rfl
@[simp] theorem State.setCaller_flight (s : State) (d : DieId) (k : CallerId) (c : Caller) : (s.setCaller d k c).flight = s.flight := rfl
@[simp] theorem State.setCaller_hostOut (s : State) (d : DieId) (k : CallerId) (c : Caller) : (s.setCaller d k c).hostOut = s.hostOut := rfl
@[simp] theorem State.setCaller_retq (s : State) (d : DieId) (k : CallerId) (c : Caller) : (s.setCaller d k c).retq = s.retq := rfl
@[simp] theorem State.setCaller_x15Host (s : State) (d : DieId) (k : CallerId) (c : Caller) : (s.setCaller d k c).x15Host = s.x15Host := rfl
@[simp] theorem State.setCaller_cctx (s : State) (d : DieId) (k : CallerId) (c : Caller) : (s.setCaller d k c).cctx = s.cctx := rfl
@[simp] theorem State.setCaller_wins (s : State) (d : DieId) (k : CallerId) (c : Caller) : (s.setCaller d k c).wins = s.wins := rfl
@[simp] theorem State.setCaller_tagWait (s : State) (d : DieId) (k : CallerId) (c : Caller) : (s.setCaller d k c).tagWait = s.tagWait := rfl
@[simp] theorem State.setCaller_waiters (s : State) (d : DieId) (k : CallerId) (c : Caller) : (s.setCaller d k c).waiters = s.waiters := rfl
@[simp] theorem State.setCaller_cells (s : State) (d : DieId) (k : CallerId) (c : Caller) : (s.setCaller d k c).cells = s.cells := rfl
@[simp] theorem State.setCaller_tlb (s : State) (d : DieId) (k : CallerId) (c : Caller) : (s.setCaller d k c).tlb = s.tlb := rfl
@[simp] theorem State.setCaller_walks (s : State) (d : DieId) (k : CallerId) (c : Caller) : (s.setCaller d k c).walks = s.walks := rfl
@[simp] theorem State.setCaller_segs (s : State) (d : DieId) (k : CallerId) (c : Caller) : (s.setCaller d k c).segs = s.segs := rfl
@[simp] theorem State.setCaller_readReqs (s : State) (d : DieId) (k : CallerId) (c : Caller) : (s.setCaller d k c).readReqs = s.readReqs := rfl
@[simp] theorem State.setCaller_readWait (s : State) (d : DieId) (k : CallerId) (c : Caller) : (s.setCaller d k c).readWait = s.readWait := rfl
@[simp] theorem State.setCaller_ctxs (s : State) (d : DieId) (k : CallerId) (c : Caller) : (s.setCaller d k c).ctxs = s.ctxs := rfl
@[simp] theorem State.setCaller_mesh (s : State) (d : DieId) (k : CallerId) (c : Caller) : (s.setCaller d k c).mesh = s.mesh := rfl
@[simp] theorem State.setCaller_base (s : State) (d : DieId) (k : CallerId) (c : Caller) : (s.setCaller d k c).base = s.base := rfl
@[simp] theorem State.setCaller_dbg (s : State) (d : DieId) (k : CallerId) (c : Caller) : (s.setCaller d k c).dbg = s.dbg := rfl
@[simp] theorem State.setCaller_links (s : State) (d : DieId) (k : CallerId) (c : Caller) : (s.setCaller d k c).links = s.links := rfl
@[simp] theorem State.setCaller_remotes (s : State) (d : DieId) (k : CallerId) (c : Caller) : (s.setCaller d k c).remotes = s.remotes := rfl
@[simp] theorem State.setCaller_nextTag (s : State) (d : DieId) (k : CallerId) (c : Caller) : (s.setCaller d k c).nextTag = s.nextTag := rfl
@[simp] theorem State.setCaller_mc (s : State) (d : DieId) (k : CallerId) (c : Caller) : (s.setCaller d k c).mc = s.mc := rfl
@[simp] theorem State.setCaller_heldResults (s : State) (d : DieId) (k : CallerId) (c : Caller) : (s.setCaller d k c).heldResults = s.heldResults := rfl
@[simp] theorem State.setCaller_syncHeld (s : State) (d : DieId) (k : CallerId) (c : Caller) : (s.setCaller d k c).syncHeld = s.syncHeld := rfl
@[simp] theorem State.setCaller_copyOp (s : State) (d : DieId) (k : CallerId) (c : Caller) : (s.setCaller d k c).copyOp = s.copyOp := rfl
@[simp] theorem State.setCaller_image (s : State) (d : DieId) (k : CallerId) (c : Caller) : (s.setCaller d k c).image = s.image := rfl
@[simp] theorem State.setCaller_guestNonce (s : State) (d : DieId) (k : CallerId) (c : Caller) : (s.setCaller d k c).guestNonce = s.guestNonce := rfl
@[simp] theorem State.setCaller_opt (s : State) (d : DieId) (k : CallerId) (c : Caller) : (s.setCaller d k c).opt = s.opt := rfl
@[simp] theorem State.setCaller_eeprom (s : State) (d : DieId) (k : CallerId) (c : Caller) : (s.setCaller d k c).eeprom = s.eeprom := rfl
@[simp] theorem State.setCaller_leftOut (s : State) (d : DieId) (k : CallerId) (c : Caller) : (s.setCaller d k c).leftOut = s.leftOut := rfl
@[simp] theorem State.setCaller_hlk (s : State) (d : DieId) (k : CallerId) (c : Caller) : (s.setCaller d k c).hlk = s.hlk := rfl
@[simp] theorem State.setCaller_light (s : State) (d : DieId) (k : CallerId) (c : Caller) : (s.setCaller d k c).light = s.light := rfl
@[simp] theorem State.setCaller_lease (s : State) (d : DieId) (k : CallerId) (c : Caller) : (s.setCaller d k c).lease = s.lease := rfl
@[simp] theorem State.setCaller_pins (s : State) (d : DieId) (k : CallerId) (c : Caller) : (s.setCaller d k c).pins = s.pins := rfl
@[simp] theorem State.setCaller_modeNext (s : State) (d : DieId) (k : CallerId) (c : Caller) : (s.setCaller d k c).modeNext = s.modeNext := rfl
@[simp] theorem State.setCaller_flt (s : State) (d : DieId) (k : CallerId) (c : Caller) : (s.setCaller d k c).flt = s.flt := rfl
@[simp] theorem State.setCaller_boot (s : State) (d : DieId) (k : CallerId) (c : Caller) : (s.setCaller d k c).boot = s.boot := rfl
@[simp] theorem State.setCaller_flash (s : State) (d : DieId) (k : CallerId) (c : Caller) : (s.setCaller d k c).flash = s.flash := rfl
@[simp] theorem State.setCaller_dieOp (s : State) (d : DieId) (k : CallerId) (c : Caller) : (s.setCaller d k c).dieOp = s.dieOp := rfl
@[simp] theorem State.setCaller_recheck (s : State) (d : DieId) (k : CallerId) (c : Caller) : (s.setCaller d k c).recheck = s.recheck := rfl

/-! ### State.setCc -/

@[simp] theorem State.setCc_pending (s : State) (d : DieId) (k : CallerId) (c : CtxId) (v : CallerCtx) : (s.setCc d k c v).pending = s.pending := rfl
@[simp] theorem State.setCc_regs (s : State) (d : DieId) (k : CallerId) (c : CtxId) (v : CallerCtx) : (s.setCc d k c v).regs = s.regs := rfl
@[simp] theorem State.setCc_lowWords (s : State) (d : DieId) (k : CallerId) (c : CtxId) (v : CallerCtx) : (s.setCc d k c v).lowWords = s.lowWords := rfl
@[simp] theorem State.setCc_latches (s : State) (d : DieId) (k : CallerId) (c : CtxId) (v : CallerCtx) : (s.setCc d k c v).latches = s.latches := rfl
@[simp] theorem State.setCc_mem (s : State) (d : DieId) (k : CallerId) (c : CtxId) (v : CallerCtx) : (s.setCc d k c v).mem = s.mem := rfl
@[simp] theorem State.setCc_ecc (s : State) (d : DieId) (k : CallerId) (c : CtxId) (v : CallerCtx) : (s.setCc d k c v).ecc = s.ecc := rfl
@[simp] theorem State.setCc_beat (s : State) (d : DieId) (k : CallerId) (c : CtxId) (v : CallerCtx) : (s.setCc d k c v).beat = s.beat := rfl
@[simp] theorem State.setCc_clock (s : State) (d : DieId) (k : CallerId) (c : CtxId) (v : CallerCtx) : (s.setCc d k c v).clock = s.clock := rfl
@[simp] theorem State.setCc_now (s : State) (d : DieId) (k : CallerId) (c : CtxId) (v : CallerCtx) : (s.setCc d k c v).now = s.now := rfl
@[simp] theorem State.setCc_lag (s : State) (d : DieId) (k : CallerId) (c : CtxId) (v : CallerCtx) : (s.setCc d k c v).lag = s.lag := rfl
@[simp] theorem State.setCc_freeCtr (s : State) (d : DieId) (k : CallerId) (c : CtxId) (v : CallerCtx) : (s.setCc d k c v).freeCtr = s.freeCtr := rfl
@[simp] theorem State.setCc_reports (s : State) (d : DieId) (k : CallerId) (c : CtxId) (v : CallerCtx) : (s.setCc d k c v).reports = s.reports := rfl
@[simp] theorem State.setCc_net (s : State) (d : DieId) (k : CallerId) (c : CtxId) (v : CallerCtx) : (s.setCc d k c v).net = s.net := rfl
@[simp] theorem State.setCc_flight (s : State) (d : DieId) (k : CallerId) (c : CtxId) (v : CallerCtx) : (s.setCc d k c v).flight = s.flight := rfl
@[simp] theorem State.setCc_hostOut (s : State) (d : DieId) (k : CallerId) (c : CtxId) (v : CallerCtx) : (s.setCc d k c v).hostOut = s.hostOut := rfl
@[simp] theorem State.setCc_retq (s : State) (d : DieId) (k : CallerId) (c : CtxId) (v : CallerCtx) : (s.setCc d k c v).retq = s.retq := rfl
@[simp] theorem State.setCc_x15Host (s : State) (d : DieId) (k : CallerId) (c : CtxId) (v : CallerCtx) : (s.setCc d k c v).x15Host = s.x15Host := rfl
@[simp] theorem State.setCc_callers (s : State) (d : DieId) (k : CallerId) (c : CtxId) (v : CallerCtx) : (s.setCc d k c v).callers = s.callers := rfl
@[simp] theorem State.setCc_wins (s : State) (d : DieId) (k : CallerId) (c : CtxId) (v : CallerCtx) : (s.setCc d k c v).wins = s.wins := rfl
@[simp] theorem State.setCc_tagWait (s : State) (d : DieId) (k : CallerId) (c : CtxId) (v : CallerCtx) : (s.setCc d k c v).tagWait = s.tagWait := rfl
@[simp] theorem State.setCc_waiters (s : State) (d : DieId) (k : CallerId) (c : CtxId) (v : CallerCtx) : (s.setCc d k c v).waiters = s.waiters := rfl
@[simp] theorem State.setCc_cells (s : State) (d : DieId) (k : CallerId) (c : CtxId) (v : CallerCtx) : (s.setCc d k c v).cells = s.cells := rfl
@[simp] theorem State.setCc_tlb (s : State) (d : DieId) (k : CallerId) (c : CtxId) (v : CallerCtx) : (s.setCc d k c v).tlb = s.tlb := rfl
@[simp] theorem State.setCc_walks (s : State) (d : DieId) (k : CallerId) (c : CtxId) (v : CallerCtx) : (s.setCc d k c v).walks = s.walks := rfl
@[simp] theorem State.setCc_segs (s : State) (d : DieId) (k : CallerId) (c : CtxId) (v : CallerCtx) : (s.setCc d k c v).segs = s.segs := rfl
@[simp] theorem State.setCc_readReqs (s : State) (d : DieId) (k : CallerId) (c : CtxId) (v : CallerCtx) : (s.setCc d k c v).readReqs = s.readReqs := rfl
@[simp] theorem State.setCc_readWait (s : State) (d : DieId) (k : CallerId) (c : CtxId) (v : CallerCtx) : (s.setCc d k c v).readWait = s.readWait := rfl
@[simp] theorem State.setCc_ctxs (s : State) (d : DieId) (k : CallerId) (c : CtxId) (v : CallerCtx) : (s.setCc d k c v).ctxs = s.ctxs := rfl
@[simp] theorem State.setCc_mesh (s : State) (d : DieId) (k : CallerId) (c : CtxId) (v : CallerCtx) : (s.setCc d k c v).mesh = s.mesh := rfl
@[simp] theorem State.setCc_base (s : State) (d : DieId) (k : CallerId) (c : CtxId) (v : CallerCtx) : (s.setCc d k c v).base = s.base := rfl
@[simp] theorem State.setCc_dbg (s : State) (d : DieId) (k : CallerId) (c : CtxId) (v : CallerCtx) : (s.setCc d k c v).dbg = s.dbg := rfl
@[simp] theorem State.setCc_links (s : State) (d : DieId) (k : CallerId) (c : CtxId) (v : CallerCtx) : (s.setCc d k c v).links = s.links := rfl
@[simp] theorem State.setCc_remotes (s : State) (d : DieId) (k : CallerId) (c : CtxId) (v : CallerCtx) : (s.setCc d k c v).remotes = s.remotes := rfl
@[simp] theorem State.setCc_nextTag (s : State) (d : DieId) (k : CallerId) (c : CtxId) (v : CallerCtx) : (s.setCc d k c v).nextTag = s.nextTag := rfl
@[simp] theorem State.setCc_mc (s : State) (d : DieId) (k : CallerId) (c : CtxId) (v : CallerCtx) : (s.setCc d k c v).mc = s.mc := rfl
@[simp] theorem State.setCc_heldResults (s : State) (d : DieId) (k : CallerId) (c : CtxId) (v : CallerCtx) : (s.setCc d k c v).heldResults = s.heldResults := rfl
@[simp] theorem State.setCc_syncHeld (s : State) (d : DieId) (k : CallerId) (c : CtxId) (v : CallerCtx) : (s.setCc d k c v).syncHeld = s.syncHeld := rfl
@[simp] theorem State.setCc_copyOp (s : State) (d : DieId) (k : CallerId) (c : CtxId) (v : CallerCtx) : (s.setCc d k c v).copyOp = s.copyOp := rfl
@[simp] theorem State.setCc_image (s : State) (d : DieId) (k : CallerId) (c : CtxId) (v : CallerCtx) : (s.setCc d k c v).image = s.image := rfl
@[simp] theorem State.setCc_guestNonce (s : State) (d : DieId) (k : CallerId) (c : CtxId) (v : CallerCtx) : (s.setCc d k c v).guestNonce = s.guestNonce := rfl
@[simp] theorem State.setCc_opt (s : State) (d : DieId) (k : CallerId) (c : CtxId) (v : CallerCtx) : (s.setCc d k c v).opt = s.opt := rfl
@[simp] theorem State.setCc_eeprom (s : State) (d : DieId) (k : CallerId) (c : CtxId) (v : CallerCtx) : (s.setCc d k c v).eeprom = s.eeprom := rfl
@[simp] theorem State.setCc_leftOut (s : State) (d : DieId) (k : CallerId) (c : CtxId) (v : CallerCtx) : (s.setCc d k c v).leftOut = s.leftOut := rfl
@[simp] theorem State.setCc_hlk (s : State) (d : DieId) (k : CallerId) (c : CtxId) (v : CallerCtx) : (s.setCc d k c v).hlk = s.hlk := rfl
@[simp] theorem State.setCc_light (s : State) (d : DieId) (k : CallerId) (c : CtxId) (v : CallerCtx) : (s.setCc d k c v).light = s.light := rfl
@[simp] theorem State.setCc_lease (s : State) (d : DieId) (k : CallerId) (c : CtxId) (v : CallerCtx) : (s.setCc d k c v).lease = s.lease := rfl
@[simp] theorem State.setCc_pins (s : State) (d : DieId) (k : CallerId) (c : CtxId) (v : CallerCtx) : (s.setCc d k c v).pins = s.pins := rfl
@[simp] theorem State.setCc_modeNext (s : State) (d : DieId) (k : CallerId) (c : CtxId) (v : CallerCtx) : (s.setCc d k c v).modeNext = s.modeNext := rfl
@[simp] theorem State.setCc_flt (s : State) (d : DieId) (k : CallerId) (c : CtxId) (v : CallerCtx) : (s.setCc d k c v).flt = s.flt := rfl
@[simp] theorem State.setCc_boot (s : State) (d : DieId) (k : CallerId) (c : CtxId) (v : CallerCtx) : (s.setCc d k c v).boot = s.boot := rfl
@[simp] theorem State.setCc_flash (s : State) (d : DieId) (k : CallerId) (c : CtxId) (v : CallerCtx) : (s.setCc d k c v).flash = s.flash := rfl
@[simp] theorem State.setCc_dieOp (s : State) (d : DieId) (k : CallerId) (c : CtxId) (v : CallerCtx) : (s.setCc d k c v).dieOp = s.dieOp := rfl
@[simp] theorem State.setCc_recheck (s : State) (d : DieId) (k : CallerId) (c : CtxId) (v : CallerCtx) : (s.setCc d k c v).recheck = s.recheck := rfl

/-! ### State.setCtx -/

@[simp] theorem State.setCtx_pending (s : State) (c : CtxId) (v : CtxHub) : (s.setCtx c v).pending = s.pending := rfl
@[simp] theorem State.setCtx_regs (s : State) (c : CtxId) (v : CtxHub) : (s.setCtx c v).regs = s.regs := rfl
@[simp] theorem State.setCtx_lowWords (s : State) (c : CtxId) (v : CtxHub) : (s.setCtx c v).lowWords = s.lowWords := rfl
@[simp] theorem State.setCtx_latches (s : State) (c : CtxId) (v : CtxHub) : (s.setCtx c v).latches = s.latches := rfl
@[simp] theorem State.setCtx_mem (s : State) (c : CtxId) (v : CtxHub) : (s.setCtx c v).mem = s.mem := rfl
@[simp] theorem State.setCtx_ecc (s : State) (c : CtxId) (v : CtxHub) : (s.setCtx c v).ecc = s.ecc := rfl
@[simp] theorem State.setCtx_beat (s : State) (c : CtxId) (v : CtxHub) : (s.setCtx c v).beat = s.beat := rfl
@[simp] theorem State.setCtx_clock (s : State) (c : CtxId) (v : CtxHub) : (s.setCtx c v).clock = s.clock := rfl
@[simp] theorem State.setCtx_now (s : State) (c : CtxId) (v : CtxHub) : (s.setCtx c v).now = s.now := rfl
@[simp] theorem State.setCtx_lag (s : State) (c : CtxId) (v : CtxHub) : (s.setCtx c v).lag = s.lag := rfl
@[simp] theorem State.setCtx_freeCtr (s : State) (c : CtxId) (v : CtxHub) : (s.setCtx c v).freeCtr = s.freeCtr := rfl
@[simp] theorem State.setCtx_reports (s : State) (c : CtxId) (v : CtxHub) : (s.setCtx c v).reports = s.reports := rfl
@[simp] theorem State.setCtx_net (s : State) (c : CtxId) (v : CtxHub) : (s.setCtx c v).net = s.net := rfl
@[simp] theorem State.setCtx_flight (s : State) (c : CtxId) (v : CtxHub) : (s.setCtx c v).flight = s.flight := rfl
@[simp] theorem State.setCtx_hostOut (s : State) (c : CtxId) (v : CtxHub) : (s.setCtx c v).hostOut = s.hostOut := rfl
@[simp] theorem State.setCtx_retq (s : State) (c : CtxId) (v : CtxHub) : (s.setCtx c v).retq = s.retq := rfl
@[simp] theorem State.setCtx_x15Host (s : State) (c : CtxId) (v : CtxHub) : (s.setCtx c v).x15Host = s.x15Host := rfl
@[simp] theorem State.setCtx_callers (s : State) (c : CtxId) (v : CtxHub) : (s.setCtx c v).callers = s.callers := rfl
@[simp] theorem State.setCtx_cctx (s : State) (c : CtxId) (v : CtxHub) : (s.setCtx c v).cctx = s.cctx := rfl
@[simp] theorem State.setCtx_wins (s : State) (c : CtxId) (v : CtxHub) : (s.setCtx c v).wins = s.wins := rfl
@[simp] theorem State.setCtx_tagWait (s : State) (c : CtxId) (v : CtxHub) : (s.setCtx c v).tagWait = s.tagWait := rfl
@[simp] theorem State.setCtx_waiters (s : State) (c : CtxId) (v : CtxHub) : (s.setCtx c v).waiters = s.waiters := rfl
@[simp] theorem State.setCtx_cells (s : State) (c : CtxId) (v : CtxHub) : (s.setCtx c v).cells = s.cells := rfl
@[simp] theorem State.setCtx_tlb (s : State) (c : CtxId) (v : CtxHub) : (s.setCtx c v).tlb = s.tlb := rfl
@[simp] theorem State.setCtx_walks (s : State) (c : CtxId) (v : CtxHub) : (s.setCtx c v).walks = s.walks := rfl
@[simp] theorem State.setCtx_segs (s : State) (c : CtxId) (v : CtxHub) : (s.setCtx c v).segs = s.segs := rfl
@[simp] theorem State.setCtx_readReqs (s : State) (c : CtxId) (v : CtxHub) : (s.setCtx c v).readReqs = s.readReqs := rfl
@[simp] theorem State.setCtx_readWait (s : State) (c : CtxId) (v : CtxHub) : (s.setCtx c v).readWait = s.readWait := rfl
@[simp] theorem State.setCtx_mesh (s : State) (c : CtxId) (v : CtxHub) : (s.setCtx c v).mesh = s.mesh := rfl
@[simp] theorem State.setCtx_base (s : State) (c : CtxId) (v : CtxHub) : (s.setCtx c v).base = s.base := rfl
@[simp] theorem State.setCtx_dbg (s : State) (c : CtxId) (v : CtxHub) : (s.setCtx c v).dbg = s.dbg := rfl
@[simp] theorem State.setCtx_links (s : State) (c : CtxId) (v : CtxHub) : (s.setCtx c v).links = s.links := rfl
@[simp] theorem State.setCtx_remotes (s : State) (c : CtxId) (v : CtxHub) : (s.setCtx c v).remotes = s.remotes := rfl
@[simp] theorem State.setCtx_nextTag (s : State) (c : CtxId) (v : CtxHub) : (s.setCtx c v).nextTag = s.nextTag := rfl
@[simp] theorem State.setCtx_mc (s : State) (c : CtxId) (v : CtxHub) : (s.setCtx c v).mc = s.mc := rfl
@[simp] theorem State.setCtx_heldResults (s : State) (c : CtxId) (v : CtxHub) : (s.setCtx c v).heldResults = s.heldResults := rfl
@[simp] theorem State.setCtx_syncHeld (s : State) (c : CtxId) (v : CtxHub) : (s.setCtx c v).syncHeld = s.syncHeld := rfl
@[simp] theorem State.setCtx_copyOp (s : State) (c : CtxId) (v : CtxHub) : (s.setCtx c v).copyOp = s.copyOp := rfl
@[simp] theorem State.setCtx_image (s : State) (c : CtxId) (v : CtxHub) : (s.setCtx c v).image = s.image := rfl
@[simp] theorem State.setCtx_guestNonce (s : State) (c : CtxId) (v : CtxHub) : (s.setCtx c v).guestNonce = s.guestNonce := rfl
@[simp] theorem State.setCtx_opt (s : State) (c : CtxId) (v : CtxHub) : (s.setCtx c v).opt = s.opt := rfl
@[simp] theorem State.setCtx_eeprom (s : State) (c : CtxId) (v : CtxHub) : (s.setCtx c v).eeprom = s.eeprom := rfl
@[simp] theorem State.setCtx_leftOut (s : State) (c : CtxId) (v : CtxHub) : (s.setCtx c v).leftOut = s.leftOut := rfl
@[simp] theorem State.setCtx_hlk (s : State) (c : CtxId) (v : CtxHub) : (s.setCtx c v).hlk = s.hlk := rfl
@[simp] theorem State.setCtx_light (s : State) (c : CtxId) (v : CtxHub) : (s.setCtx c v).light = s.light := rfl
@[simp] theorem State.setCtx_lease (s : State) (c : CtxId) (v : CtxHub) : (s.setCtx c v).lease = s.lease := rfl
@[simp] theorem State.setCtx_pins (s : State) (c : CtxId) (v : CtxHub) : (s.setCtx c v).pins = s.pins := rfl
@[simp] theorem State.setCtx_modeNext (s : State) (c : CtxId) (v : CtxHub) : (s.setCtx c v).modeNext = s.modeNext := rfl
@[simp] theorem State.setCtx_flt (s : State) (c : CtxId) (v : CtxHub) : (s.setCtx c v).flt = s.flt := rfl
@[simp] theorem State.setCtx_boot (s : State) (c : CtxId) (v : CtxHub) : (s.setCtx c v).boot = s.boot := rfl
@[simp] theorem State.setCtx_flash (s : State) (c : CtxId) (v : CtxHub) : (s.setCtx c v).flash = s.flash := rfl
@[simp] theorem State.setCtx_dieOp (s : State) (c : CtxId) (v : CtxHub) : (s.setCtx c v).dieOp = s.dieOp := rfl
@[simp] theorem State.setCtx_recheck (s : State) (c : CtxId) (v : CtxHub) : (s.setCtx c v).recheck = s.recheck := rfl

/-! ### State.setLink -/

@[simp] theorem State.setLink_pending (s : State) (x : Nat) (l : XLink) : (s.setLink x l).pending = s.pending := rfl
@[simp] theorem State.setLink_regs (s : State) (x : Nat) (l : XLink) : (s.setLink x l).regs = s.regs := rfl
@[simp] theorem State.setLink_lowWords (s : State) (x : Nat) (l : XLink) : (s.setLink x l).lowWords = s.lowWords := rfl
@[simp] theorem State.setLink_latches (s : State) (x : Nat) (l : XLink) : (s.setLink x l).latches = s.latches := rfl
@[simp] theorem State.setLink_mem (s : State) (x : Nat) (l : XLink) : (s.setLink x l).mem = s.mem := rfl
@[simp] theorem State.setLink_ecc (s : State) (x : Nat) (l : XLink) : (s.setLink x l).ecc = s.ecc := rfl
@[simp] theorem State.setLink_beat (s : State) (x : Nat) (l : XLink) : (s.setLink x l).beat = s.beat := rfl
@[simp] theorem State.setLink_clock (s : State) (x : Nat) (l : XLink) : (s.setLink x l).clock = s.clock := rfl
@[simp] theorem State.setLink_now (s : State) (x : Nat) (l : XLink) : (s.setLink x l).now = s.now := rfl
@[simp] theorem State.setLink_lag (s : State) (x : Nat) (l : XLink) : (s.setLink x l).lag = s.lag := rfl
@[simp] theorem State.setLink_freeCtr (s : State) (x : Nat) (l : XLink) : (s.setLink x l).freeCtr = s.freeCtr := rfl
@[simp] theorem State.setLink_reports (s : State) (x : Nat) (l : XLink) : (s.setLink x l).reports = s.reports := rfl
@[simp] theorem State.setLink_net (s : State) (x : Nat) (l : XLink) : (s.setLink x l).net = s.net := rfl
@[simp] theorem State.setLink_flight (s : State) (x : Nat) (l : XLink) : (s.setLink x l).flight = s.flight := rfl
@[simp] theorem State.setLink_hostOut (s : State) (x : Nat) (l : XLink) : (s.setLink x l).hostOut = s.hostOut := rfl
@[simp] theorem State.setLink_retq (s : State) (x : Nat) (l : XLink) : (s.setLink x l).retq = s.retq := rfl
@[simp] theorem State.setLink_x15Host (s : State) (x : Nat) (l : XLink) : (s.setLink x l).x15Host = s.x15Host := rfl
@[simp] theorem State.setLink_callers (s : State) (x : Nat) (l : XLink) : (s.setLink x l).callers = s.callers := rfl
@[simp] theorem State.setLink_cctx (s : State) (x : Nat) (l : XLink) : (s.setLink x l).cctx = s.cctx := rfl
@[simp] theorem State.setLink_wins (s : State) (x : Nat) (l : XLink) : (s.setLink x l).wins = s.wins := rfl
@[simp] theorem State.setLink_tagWait (s : State) (x : Nat) (l : XLink) : (s.setLink x l).tagWait = s.tagWait := rfl
@[simp] theorem State.setLink_waiters (s : State) (x : Nat) (l : XLink) : (s.setLink x l).waiters = s.waiters := rfl
@[simp] theorem State.setLink_cells (s : State) (x : Nat) (l : XLink) : (s.setLink x l).cells = s.cells := rfl
@[simp] theorem State.setLink_tlb (s : State) (x : Nat) (l : XLink) : (s.setLink x l).tlb = s.tlb := rfl
@[simp] theorem State.setLink_walks (s : State) (x : Nat) (l : XLink) : (s.setLink x l).walks = s.walks := rfl
@[simp] theorem State.setLink_segs (s : State) (x : Nat) (l : XLink) : (s.setLink x l).segs = s.segs := rfl
@[simp] theorem State.setLink_readReqs (s : State) (x : Nat) (l : XLink) : (s.setLink x l).readReqs = s.readReqs := rfl
@[simp] theorem State.setLink_readWait (s : State) (x : Nat) (l : XLink) : (s.setLink x l).readWait = s.readWait := rfl
@[simp] theorem State.setLink_ctxs (s : State) (x : Nat) (l : XLink) : (s.setLink x l).ctxs = s.ctxs := rfl
@[simp] theorem State.setLink_mesh (s : State) (x : Nat) (l : XLink) : (s.setLink x l).mesh = s.mesh := rfl
@[simp] theorem State.setLink_base (s : State) (x : Nat) (l : XLink) : (s.setLink x l).base = s.base := rfl
@[simp] theorem State.setLink_dbg (s : State) (x : Nat) (l : XLink) : (s.setLink x l).dbg = s.dbg := rfl
@[simp] theorem State.setLink_remotes (s : State) (x : Nat) (l : XLink) : (s.setLink x l).remotes = s.remotes := rfl
@[simp] theorem State.setLink_nextTag (s : State) (x : Nat) (l : XLink) : (s.setLink x l).nextTag = s.nextTag := rfl
@[simp] theorem State.setLink_mc (s : State) (x : Nat) (l : XLink) : (s.setLink x l).mc = s.mc := rfl
@[simp] theorem State.setLink_heldResults (s : State) (x : Nat) (l : XLink) : (s.setLink x l).heldResults = s.heldResults := rfl
@[simp] theorem State.setLink_syncHeld (s : State) (x : Nat) (l : XLink) : (s.setLink x l).syncHeld = s.syncHeld := rfl
@[simp] theorem State.setLink_copyOp (s : State) (x : Nat) (l : XLink) : (s.setLink x l).copyOp = s.copyOp := rfl
@[simp] theorem State.setLink_image (s : State) (x : Nat) (l : XLink) : (s.setLink x l).image = s.image := rfl
@[simp] theorem State.setLink_guestNonce (s : State) (x : Nat) (l : XLink) : (s.setLink x l).guestNonce = s.guestNonce := rfl
@[simp] theorem State.setLink_opt (s : State) (x : Nat) (l : XLink) : (s.setLink x l).opt = s.opt := rfl
@[simp] theorem State.setLink_eeprom (s : State) (x : Nat) (l : XLink) : (s.setLink x l).eeprom = s.eeprom := rfl
@[simp] theorem State.setLink_leftOut (s : State) (x : Nat) (l : XLink) : (s.setLink x l).leftOut = s.leftOut := rfl
@[simp] theorem State.setLink_hlk (s : State) (x : Nat) (l : XLink) : (s.setLink x l).hlk = s.hlk := rfl
@[simp] theorem State.setLink_light (s : State) (x : Nat) (l : XLink) : (s.setLink x l).light = s.light := rfl
@[simp] theorem State.setLink_lease (s : State) (x : Nat) (l : XLink) : (s.setLink x l).lease = s.lease := rfl
@[simp] theorem State.setLink_pins (s : State) (x : Nat) (l : XLink) : (s.setLink x l).pins = s.pins := rfl
@[simp] theorem State.setLink_modeNext (s : State) (x : Nat) (l : XLink) : (s.setLink x l).modeNext = s.modeNext := rfl
@[simp] theorem State.setLink_flt (s : State) (x : Nat) (l : XLink) : (s.setLink x l).flt = s.flt := rfl
@[simp] theorem State.setLink_boot (s : State) (x : Nat) (l : XLink) : (s.setLink x l).boot = s.boot := rfl
@[simp] theorem State.setLink_flash (s : State) (x : Nat) (l : XLink) : (s.setLink x l).flash = s.flash := rfl
@[simp] theorem State.setLink_dieOp (s : State) (x : Nat) (l : XLink) : (s.setLink x l).dieOp = s.dieOp := rfl
@[simp] theorem State.setLink_recheck (s : State) (x : Nat) (l : XLink) : (s.setLink x l).recheck = s.recheck := rfl

end Sys2Proof.Machine
end

