-- ==== Sys2Proof/Laws/Ops.lean ====
section
/-! SUPPORT. Laws of the shared operations: registers and their fields, memory and its error marks, Callers, contexts and
links, and messages to the host. -/
namespace Sys2Proof.Machine

/-! ### Fields of a word -/

theorem testBit_getF (w : Word) (hi lo i : Nat) :
    (getF w hi lo).testBit i = (decide (i < hi - lo + 1) && w.getLsbD (lo + i)) := by
  simp [getF, Nat.testBit_mod_two_pow, Nat.testBit_div_two_pow, BitVec.getLsbD, Nat.add_comm]

theorem getLsbD_fieldMask (hi lo i : Nat) (hl : lo ≤ hi) :
    (fieldMask hi lo).getLsbD i = (decide (i < 32) && decide (lo ≤ i) && decide (i ≤ hi)) := by
  rw [fieldMask, BitVec.getLsbD_ofNat, Nat.testBit_mul_two_pow, Nat.testBit_two_pow_sub_one, Bool.and_assoc]
  congr 1
  by_cases h : lo ≤ i
  · simp only [h, decide_true, Bool.true_and, decide_eq_decide]; omega
  · simp [h]

theorem getLsbD_setF (w : Word) (hi lo v i : Nat) (hl : lo ≤ hi) :
    (setF w hi lo v).getLsbD i =
      (decide (i < 32) && if lo ≤ i ∧ i ≤ hi then v.testBit (i - lo) else w.getLsbD i) := by
  rw [setF, BitVec.getLsbD_or, BitVec.getLsbD_and, BitVec.getLsbD_not, getLsbD_fieldMask _ _ _ hl, BitVec.getLsbD_ofNat,
    Nat.testBit_mul_two_pow, Nat.testBit_mod_two_pow]
  by_cases h0 : i < 32
  · by_cases h1 : lo ≤ i
    · by_cases h2 : i ≤ hi
      · have : i - lo < hi - lo + 1 := by omega
        simp [h0, h1, h2, this]
      · have : ¬ i - lo < hi - lo + 1 := by omega
        simp [h0, h1, h2, this]
    · simp [h0, h1]
  · simp [h0]

theorem getF_lt (w : Word) (hi lo : Nat) : getF w hi lo < 2 ^ (hi - lo + 1) := Nat.mod_lt _ (Nat.two_pow_pos _)

theorem getF_setF_same (w : Word) (hi lo v : Nat) (hl : lo ≤ hi) (hh : hi < 32) :
    getF (setF w hi lo v) hi lo = v % 2 ^ (hi - lo + 1) := by
  apply Nat.eq_of_testBit_eq
  intro i
  rw [testBit_getF, getLsbD_setF _ _ _ _ _ hl, Nat.testBit_mod_two_pow]
  by_cases h : i < hi - lo + 1
  · have h1 : lo + i < 32 := by omega
    have h2 : lo ≤ lo + i ∧ lo + i ≤ hi := by omega
    have h3 : lo + i - lo = i := by omega
    simp [h, h1, h2, h3]
  · simp [h]

theorem getF_setF_disjoint (w : Word) (hi lo v hi' lo' : Nat) (hl : lo ≤ hi) (hd : hi' < lo ∨ hi < lo') (hl' : lo' ≤ hi') :
    getF (setF w hi lo v) hi' lo' = getF w hi' lo' := by
  apply Nat.eq_of_testBit_eq
  intro i
  rw [testBit_getF, testBit_getF, getLsbD_setF _ _ _ _ _ hl]
  by_cases h : i < hi' - lo' + 1
  · have h1 : ¬ (lo ≤ lo' + i ∧ lo' + i ≤ hi) := by omega
    rw [if_neg h1]
    by_cases h0 : lo' + i < 32
    · simp [h0]
    · simp [h0, BitVec.getLsbD_of_ge _ _ (Nat.not_lt.1 h0)]
  · simp [h]

/-! ### Registers -/

theorem State.rd_wr (s : State) (a b : Nat) (v : Word) : (s.wr a v).rd b = if a = b then v else s.rd b := by
  simp only [State.rd, State.wr, SMap.get_set]

@[simp] theorem State.rd_wr_same (s : State) (a : Nat) (v : Word) : (s.wr a v).rd a = v := by simp [State.rd_wr]

theorem State.rd_wr_ne (s : State) {a b : Nat} (v : Word) (h : a ≠ b) : (s.wr a v).rd b = s.rd b := by simp [State.rd_wr, h]

theorem State.rd_setFld (s : State) (a hi lo v b : Nat) :
    (s.setFld a hi lo v).rd b = if a = b then setF (s.rd a) hi lo v else s.rd b := State.rd_wr s a b _

theorem State.rd_setFld_ne (s : State) {a b : Nat} (hi lo v : Nat) (h : a ≠ b) : (s.setFld a hi lo v).rd b = s.rd b := by
  simp [State.rd_setFld, h]

theorem State.rd_setBit_ne (s : State) {a c : Nat} (b : Nat) (v : Bool) (h : a ≠ c) : (s.setBit a b v).rd c = s.rd c :=
  State.rd_setFld_ne s b b _ h

theorem State.rd_count (s : State) (a hi lo n b : Nat) :
    (s.count a hi lo n).rd b = if a = b then countWord (s.rd a) hi lo n else s.rd b := State.rd_wr _ a b _

theorem State.rd_count_ne (s : State) {a b : Nat} (hi lo n : Nat) (h : a ≠ b) : (s.count a hi lo n).rd b = s.rd b := by
  simp [State.rd_count, h]

theorem State.rd_flags (s : State) (a : Nat) (m : Word) (b : Nat) :
    (s.flags a m).rd b = if a = b then s.rd a ||| m else s.rd b := State.rd_wr _ a b _

theorem State.rd_flags_ne (s : State) {a b : Nat} (m : Word) (h : a ≠ b) : (s.flags a m).rd b = s.rd b := by
  simp [State.rd_flags, h]

theorem State.rd_flag_ne (s : State) {a c : Nat} (b : Nat) (h : a ≠ c) : (s.flag a b).rd c = s.rd c :=
  State.rd_flags_ne s _ h

theorem State.rd_capture_ne (s : State) {a b : Nat} (v : Word) (h : a ≠ b) : (s.capture a v).rd b = s.rd b := by
  rw [State.capture, State.rd_flag_ne _ _ h, State.rd_wr_ne s v h]

theorem State.fld_setFld_same (s : State) (a hi lo v : Nat) (hl : lo ≤ hi) (hh : hi < 32) :
    (s.setFld a hi lo v).fld a hi lo = v % 2 ^ (hi - lo + 1) := by
  simp [State.fld, State.rd_setFld, getF_setF_same _ _ _ _ hl hh]

theorem State.fld_setFld_disjoint (s : State) (a hi lo v hi' lo' : Nat) (hl : lo ≤ hi) (hl' : lo' ≤ hi')
    (hd : hi' < lo ∨ hi < lo') : (s.setFld a hi lo v).fld a hi' lo' = s.fld a hi' lo' := by
  simp [State.fld, State.rd_setFld, getF_setF_disjoint _ _ _ _ _ _ hl hd hl']

theorem State.fld_setFld_ne (s : State) {a b : Nat} (hi lo v hi' lo' : Nat) (h : a ≠ b) :
    (s.setFld a hi lo v).fld b hi' lo' = s.fld b hi' lo' := by simp [State.fld, State.rd_setFld, h]

theorem State.bit_setBit_same (s : State) (a b : Nat) (v : Bool) (hb : b < 32) : (s.setBit a b v).bit a b = v := by
  simp only [State.bit, State.setBit, State.rd_setFld, if_true, getLsbD_setF _ _ _ _ _ (Nat.le_refl b), hb]
  cases v <;> simp

theorem State.bit_setBit_other (s : State) (a b c : Nat) (v : Bool) (hc : c ≠ b) : (s.setBit a b v).bit a c = s.bit a c := by
  have h : ¬ (b ≤ c ∧ c ≤ b) := by omega
  simp only [State.bit, State.setBit, State.rd_setFld, if_true, getLsbD_setF _ _ _ _ _ (Nat.le_refl b), if_neg h]
  by_cases h0 : c < 32
  · simp [h0]
  · simp [BitVec.getLsbD_of_ge _ _ (Nat.not_lt.1 h0)]

/-- A saturating counter stops at its largest value (R540, R586). -/
theorem State.fld_count (s : State) (a hi lo n : Nat) (hl : lo ≤ hi) (hh : hi < 32) :
    (s.count a hi lo n).fld a hi lo = min (s.fld a hi lo + n) (2 ^ (hi - lo + 1) - 1) := by
  rw [State.fld, State.rd_count, if_pos rfl, countWord, getF_setF_same _ _ _ _ hl hh]
  have := Nat.two_pow_pos (hi - lo + 1)
  exact Nat.mod_eq_of_lt (by omega)

/-! What a register reads as after an update of something else. -/

@[simp] theorem State.rd_report (s : State) (r : FaultReport) (a : Nat) : (s.report r).rd a = s.rd a := rfl
@[simp] theorem State.rd_send (s : State) (m : Msg) (a : Nat) : (s.send m).rd a = s.rd a := rfl
@[simp] theorem State.rd_take (s : State) (m : Msg) (a : Nat) : (s.take m).rd a = s.rd a := rfl
@[simp] theorem State.rd_tookFree (s : State) (a : Nat) : (s.tookFree).rd a = s.rd a := rfl
@[simp] theorem State.rd_poke (s : State) (pa : Nat) (bs : List Byte) (a : Nat) : (s.poke pa bs).rd a = s.rd a := rfl
@[simp] theorem State.rd_setEcc (s : State) (pa w : Nat) (a : Nat) : (s.setEcc pa w).rd a = s.rd a := rfl
@[simp] theorem State.rd_clearEcc (s : State) (w n : Nat) (a : Nat) : (s.clearEcc w n).rd a = s.rd a := rfl
@[simp] theorem State.rd_setCaller (s : State) (d : DieId) (k : CallerId) (c : Caller) (a : Nat) : (s.setCaller d k c).rd a = s.rd a := rfl
@[simp] theorem State.rd_setCc (s : State) (d : DieId) (k : CallerId) (c : CtxId) (v : CallerCtx) (a : Nat) : (s.setCc d k c v).rd a = s.rd a := rfl
@[simp] theorem State.rd_setCtx (s : State) (c : CtxId) (v : CtxHub) (a : Nat) : (s.setCtx c v).rd a = s.rd a := rfl
@[simp] theorem State.rd_setLink (s : State) (x : Nat) (l : XLink) (a : Nat) : (s.setLink x l).rd a = s.rd a := rfl
@[simp] theorem State.byte_wr (s : State) (a : Nat) (v : Word) (pa' : Nat) : (s.wr a v).byte pa' = s.byte pa' := rfl
@[simp] theorem State.byte_setFld (s : State) (a hi lo v : Nat) (pa' : Nat) : (s.setFld a hi lo v).byte pa' = s.byte pa' := rfl
@[simp] theorem State.byte_setBit (s : State) (a b : Nat) (v : Bool) (pa' : Nat) : (s.setBit a b v).byte pa' = s.byte pa' := rfl
@[simp] theorem State.byte_count (s : State) (a hi lo n : Nat) (pa' : Nat) : (s.count a hi lo n).byte pa' = s.byte pa' := rfl
@[simp] theorem State.byte_report (s : State) (r : FaultReport) (pa' : Nat) : (s.report r).byte pa' = s.byte pa' := rfl
@[simp] theorem State.byte_send (s : State) (m : Msg) (pa' : Nat) : (s.send m).byte pa' = s.byte pa' := rfl
@[simp] theorem State.byte_take (s : State) (m : Msg) (pa' : Nat) : (s.take m).byte pa' = s.byte pa' := rfl
@[simp] theorem State.byte_tookFree (s : State) (pa' : Nat) : (s.tookFree).byte pa' = s.byte pa' := rfl
@[simp] theorem State.byte_setEcc (s : State) (pa w : Nat) (pa' : Nat) : (s.setEcc pa w).byte pa' = s.byte pa' := rfl
@[simp] theorem State.byte_clearEcc (s : State) (w n : Nat) (pa' : Nat) : (s.clearEcc w n).byte pa' = s.byte pa' := rfl
@[simp] theorem State.byte_setCaller (s : State) (d : DieId) (k : CallerId) (c : Caller) (pa' : Nat) : (s.setCaller d k c).byte pa' = s.byte pa' := rfl
@[simp] theorem State.byte_setCc (s : State) (d : DieId) (k : CallerId) (c : CtxId) (v : CallerCtx) (pa' : Nat) : (s.setCc d k c v).byte pa' = s.byte pa' := rfl
@[simp] theorem State.byte_setCtx (s : State) (c : CtxId) (v : CtxHub) (pa' : Nat) : (s.setCtx c v).byte pa' = s.byte pa' := rfl
@[simp] theorem State.byte_setLink (s : State) (x : Nat) (l : XLink) (pa' : Nat) : (s.setLink x l).byte pa' = s.byte pa' := rfl

/-! ### Memory -/

/-- Reading one byte after a run of bytes was written. -/
theorem State.byte_poke (s : State) (pa : Nat) (bs : List Byte) (a : Nat) :
    (s.poke pa bs).byte a = if h : pa ≤ a ∧ a - pa < bs.length then bs[a - pa] else s.byte a :=
  SMap.get_setList _ bs s.mem pa a

theorem State.mem_inject (s : State) (k inst pa : Nat) : (s.inject k inst pa).mem = s.mem := by
  unfold State.inject
  split
  · dsimp only; split <;> rfl
  · rfl

theorem State.mem_injectAt (s : State) (pa : Nat) : (s.injectAt pa).mem = s.mem := by
  unfold State.injectAt
  split <;> first | exact State.mem_inject _ _ _ _ | rfl

theorem State.mem_markDirty (s : State) (pa n : Nat) : (s.markDirty pa n).mem = s.mem := by
  unfold State.markDirty
  split <;> rfl

/-- A write stores its bytes and no other byte of memory changes. -/
theorem State.byte_write (s : State) (pa : Nat) (bs : List Byte) (a : Nat) :
    (s.write pa bs).byte a = if h : pa ≤ a ∧ a - pa < bs.length then bs[a - pa] else s.byte a := by
  unfold State.write
  split
  · next h => simp [h]
  · simp only [State.byte, State.mem_markDirty, State.mem_injectAt, State.clearEcc_mem]
    exact State.byte_poke s pa bs a

theorem State.bytes_length (s : State) (pa n : Nat) : (s.bytes pa n).length = n := by
  induction n generalizing pa with
  | zero => rfl
  | succ n ih => simp [State.bytes, ih]

theorem State.getElem_bytes (s : State) (pa n i : Nat) (h : i < (s.bytes pa n).length) :
    (s.bytes pa n)[i] = s.byte (pa + i) := by
  induction n generalizing pa i with
  | zero => simp [State.bytes] at h
  | succ n ih =>
    cases i with
    | zero => rfl
    | succ i =>
      simp only [State.bytes, List.getElem_cons_succ, ih]
      congr 1; omega

/-- What was written is read back (R8). -/
theorem State.bytes_write_same (s : State) (pa : Nat) (bs : List Byte) : (s.write pa bs).bytes pa bs.length = bs := by
  apply List.ext_getElem (State.bytes_length _ _ _)
  intro i h1 h2
  rw [State.getElem_bytes, State.byte_write]
  have e : pa + i - pa = i := by omega
  simp [e, h2]

/-! Every memory operation keeps the canonical form. -/

theorem Memory.wf_reset : Memory.wf State.reset = true := rfl

theorem Memory.wf_of_mem {s t : State} (h : t.mem = s.mem) (hs : Memory.wf s = true) : Memory.wf t = true := by
  simpa [Memory.wf, h] using hs

theorem Memory.wf_poke (s : State) (pa : Nat) (bs : List Byte) (h : Memory.wf s = true) :
    Memory.wf (s.poke pa bs) = true := SMap.wf_setList _ bs s.mem pa h

theorem Memory.wf_write (s : State) (pa : Nat) (bs : List Byte) (h : Memory.wf s = true) :
    Memory.wf (s.write pa bs) = true := by
  unfold State.write
  split
  · exact h
  · refine Memory.wf_of_mem ?_ (Memory.wf_poke s pa bs h)
    rw [State.mem_markDirty, State.mem_injectAt, State.clearEcc_mem]

theorem Memory.wf_zero (s : State) (dst n : Nat) (h : Memory.wf s = true) : Memory.wf (s.zero dst n) = true := by
  unfold State.zero
  split
  · exact h
  · refine Memory.wf_of_mem (s := { s with mem := SMap.clear s.mem dst (dst + n - 1) }) ?_ (SMap.wf_clear _ _ _ _ h)
    rw [State.mem_markDirty, State.mem_injectAt, State.clearEcc_mem]

theorem SMap.wf_foldl_set {α : Type} [DecidableEq α] (d : Nat → α) (f : Nat × α → Nat) (es m : SMap α)
    (h : SMap.wf d m = true) : SMap.wf d (es.foldl (fun m e => SMap.set d m (f e) e.2) m) = true := by
  induction es generalizing m with
  | nil => exact h
  | cons e es ih => exact ih _ (SMap.wf_set d m _ _ h)

theorem Memory.wf_copy (s : State) (src dst n : Nat) (h : Memory.wf s = true) : Memory.wf (s.copy src dst n) = true := by
  unfold State.copy
  split
  · exact h
  · dsimp only
    rw [Memory.wf, State.mem_markDirty, State.mem_injectAt, State.clearEcc_mem]
    exact SMap.wf_foldl_set _ (fun e => e.1 - src + dst) _ _ (SMap.wf_clear _ _ _ _ h)

theorem Memory.wf_memWrite (s : State) (m : Master) (pa : Nat) (bs : List Byte) (h : Memory.wf s = true) :
    Memory.wf (memWrite s m pa bs).1 = true := by
  unfold memWrite
  split
  · exact Memory.wf_write s _ bs h
  · exact h

theorem Registers.wf_reset : Registers.wf State.reset = true := rfl

theorem Registers.wf_of_regs {s t : State} (h : t.regs = s.regs) (hs : Registers.wf s = true) : Registers.wf t = true := by
  simpa [Registers.wf, h] using hs

theorem Registers.wf_wr (s : State) (a : Nat) (v : Word) (h : Registers.wf s = true) : Registers.wf (s.wr a v) = true :=
  SMap.wf_set regDefault s.regs a v h

theorem Registers.wf_resetRegs (s : State) (lo hi : Nat) (h : Registers.wf s = true) :
    Registers.wf (s.resetRegs lo hi) = true := SMap.wf_clear regDefault s.regs lo hi h

/-! ### Callers, contexts, links -/

@[simp] theorem State.caller_setCaller_same (s : State) (d : DieId) (k : CallerId) (c : Caller) :
    (s.setCaller d k c).caller d k = c := SMap.get_set_same _ _ _ _

theorem callerNo_inj {d d' : DieId} {k k' : CallerId} : callerNo d k = callerNo d' k' ↔ d = d' ∧ k = k' := by
  simp only [callerNo, Fin.ext_iff]; omega

theorem State.caller_setCaller_ne (s : State) {d d' : DieId} {k k' : CallerId} (c : Caller) (h : ¬ (d = d' ∧ k = k')) :
    (s.setCaller d k c).caller d' k' = s.caller d' k' :=
  SMap.get_set_ne _ _ _ (fun e => h (callerNo_inj.1 e))

@[simp] theorem State.cc_setCc_same (s : State) (d : DieId) (k : CallerId) (c : CtxId) (v : CallerCtx) :
    (s.setCc d k c v).cc d k c = v := SMap.get_set_same _ _ _ _

@[simp] theorem State.ctx_setCtx_same (s : State) (c : CtxId) (v : CtxHub) : (s.setCtx c v).ctx c = v :=
  SMap.get_set_same _ _ _ _

@[simp] theorem State.link_setLink_same (s : State) (x : Nat) (l : XLink) : (s.setLink x l).link x = l :=
  SMap.get_set_same _ _ _ _

theorem State.link_setLink_ne (s : State) {x y : Nat} (l : XLink) (h : x ≠ y) : (s.setLink x l).link y = s.link y :=
  SMap.get_set_ne _ _ _ h

/-! ### Messages to the host -/

/-- All that a message to the host can do (R425): it joins the messages sent or the return queue, from which the oldest may
go with a count of HLK_RETQ. -/
theorem State.toHost_cases (s : State) (m : HostMsg) :
    ∃ q : Sent, q.msg = m ∧
      (s.toHost m = { s with hostOut := s.hostOut ++ [q] } ∨ s.toHost m = { s with retq := s.retq ++ [q] } ∨
        s.toHost m = { s with retq := s.retq.tail ++ [q] }.count aHlkRetq 31 16 1) := by
  refine ⟨{ msg := m, shadow := prtState s = 3 || prtState s = 4 || prtState s = 5 }, rfl, ?_⟩
  unfold State.toHost
  dsimp only
  split
  · exact .inl rfl
  · split
    · exact .inr (.inl rfl)
    · exact .inr (.inr rfl)

theorem State.mem_toHost (s : State) (m : HostMsg) : (s.toHost m).mem = s.mem := by
  obtain ⟨q, -, h | h | h⟩ := State.toHost_cases s m <;> rw [h] <;> rfl

theorem State.rd_toHost_ne (s : State) (m : HostMsg) {a : Nat} (ha : a ≠ aHlkRetq) : (s.toHost m).rd a = s.rd a := by
  obtain ⟨q, -, h | h | h⟩ := State.toHost_cases s m <;> rw [h]
  · rfl
  · rfl
  · exact State.rd_count_ne _ _ _ _ (Ne.symm ha)

theorem State.mem_complete (s : State) (key : CplKey) (kind : Byte) (c : CtxId) (st : Status) (arg : BitVec 48)
    (data : List Byte) : (s.complete key kind c st arg data).mem = s.mem := by
  unfold State.complete
  split
  · rfl
  · exact State.mem_toHost _ _

theorem State.rd_complete_ne (s : State) (key : CplKey) (kind : Byte) (c : CtxId) (st : Status) (arg : BitVec 48)
    (data : List Byte) {a : Nat} (ha : a ≠ aHlkRetq) : (s.complete key kind c st arg data).rd a = s.rd a := by
  unfold State.complete
  split
  · rfl
  · exact State.rd_toHost_ne _ _ ha

end Sys2Proof.Machine
end

