-- ==== Sys2Proof/WellFormed.lean ====
section
/-! DEFINITION. Which commands a sender can send: operands that a field of the message or of the part can hold. -/
namespace Sys2Proof

/-- Byte counts of the messages that carry data (R323, R426, R427). -/
def Instr.wf : Instr → Bool
  | .regWrb _ _ data => data.length ≤ 2048 && data.length % 4 = 0
  | .memWr _ _ data => data.length ≤ 2048 && data.length % 8 = 0
  | .startStep _ _ _ data => data.length ≤ 2048 && data.length % 8 = 0
  | .save _ _ _ data => data.length = 8
  | .restore _ _ _ data => data.length = 8
  | .rdReq _ _ _ _ len => 128 ≤ len && len ≤ 2048 && len % 128 = 0
  | .wrReq _ _ _ _ data => 128 ≤ data.length && data.length ≤ 2048 && data.length % 128 = 0
  | .widePartial _ _ _ payload => payload.length = 240
  | .flitReceive _ lanes heard => lanes.length = heard.length && heard.all fun x => x.all (· < 2 ^ 18)
  | .burstReceive _ _ _ _ lanes => lanes.all fun x => x.2.all (· < 6)
  | .laneAligned _ c => c.seen.length = 8
  | .laneAlignLoss _ c => c.seen.length = 4
  | .hlkLaneAlignLoss c => c.seen.length = 4
  | .rxExitBurst b => b.lanes.all fun x => x.2.length = 128
  | .mfrep _ vals => vals.length = 18
  | .caldata _ _ _ levels => levels.length ≤ 6
  | .ledgerRequest r => r.input.all (· < 116) && r.output.all (· < 116) && r.requester < 30
  | .trainingBlock _ syms => syms.length = 15
  | .throttleEval _ rates => rates.length = 12
  | _ => true

end Sys2Proof
end

