-- ==== Sys2Proof/Tests/Slice0.lean ====
section
/-! SUPPORT. Small tests: ill-formed commands refused, the spec's printed values, and for every statement with hypotheses a
concrete state that meets them. -/
set_option Elab.async false
namespace Sys2Proof.Tests
open Sys2Proof.Machine

/-! ### Ill-formed commands -/

def hdr : HostHdr := { ch := 1, chField := 1, tag := 7, nocpl := false, fence := false, rsvd := 0, x15 := false }

def zeros (n : Nat) : List Byte := List.replicate n 0

theorem wf_refuses_regWrb : (Instr.regWrb hdr 0 (zeros 6)).wf = false := by decide +kernel
theorem wf_refuses_memWr : (Instr.memWr hdr 0 (zeros 12)).wf = false := by decide +kernel
theorem wf_refuses_startStep : (Instr.startStep hdr 0 0 (zeros 4)).wf = false := by decide +kernel
theorem wf_refuses_save : (Instr.save hdr 0 0 (zeros 4)).wf = false := by decide +kernel
theorem wf_refuses_restore : (Instr.restore hdr 0 0 (zeros 16)).wf = false := by decide +kernel
theorem wf_refuses_rdReq : (Instr.rdReq 0 1 0 0 64).wf = false := by decide +kernel
theorem wf_refuses_wrReq : (Instr.wrReq 0 1 0 0 (zeros 64)).wf = false := by decide +kernel
theorem wf_refuses_widePartial : (Instr.widePartial 0 0 0 (zeros 239)).wf = false := by decide +kernel
theorem wf_refuses_flitReceive : (Instr.flitReceive 0 [0] [[2 ^ 18]]).wf = false := by decide +kernel
theorem wf_refuses_burstReceive : (Instr.burstReceive 0 0 0 true [(0, [6])]).wf = false := by decide +kernel
theorem wf_refuses_laneAligned : (Instr.laneAligned 0 { lane := 0, seen := List.replicate 7 0, skewPs := 0 }).wf = false := by decide +kernel
theorem wf_refuses_laneAlignLoss : (Instr.laneAlignLoss 0 { lane := 0, seen := [] }).wf = false := by decide +kernel
theorem wf_refuses_hlkLaneAlignLoss : (Instr.hlkLaneAlignLoss { lane := 0, seen := [] }).wf = false := by decide +kernel
theorem wf_refuses_rxExitBurst : (Instr.rxExitBurst { lanes := [(0, [])], skewPs := 0 }).wf = false := by decide +kernel
theorem wf_refuses_ledgerRequest : (Instr.ledgerRequest ⟨false, 0, some 116, none, none, none⟩).wf = false := by decide +kernel
theorem wf_accepts_ledgerRequest : (Instr.ledgerRequest ⟨false, 29, some 115, some 115, none, none⟩).wf = true := by decide +kernel
theorem wf_refuses_mfrep : (Instr.mfrep 0 []).wf = false := by decide +kernel
theorem wf_refuses_caldata : (Instr.caldata 0 0 0 (List.replicate 7 (0, 0))).wf = false := by decide +kernel
theorem wf_refuses_trainingBlock : (Instr.trainingBlock 0 []).wf = false := by decide +kernel
theorem wf_refuses_throttleEval : (Instr.throttleEval 0 []).wf = false := by decide +kernel
theorem wf_accepts_memWr : (Instr.memWr hdr 0 (zeros 2048)).wf = true := by decide +kernel

/-! ### Small states -/

/-- The module READY with every domain on, at its highest levels, and every die in service. -/
def ready : State :=
  { State.reset with
    regs := [(aHubInv, 0xFFF), (aHubBoot, 0x6FF00000)] ++ ((List.range 12).map fun d => (aTdState d, 2)) ++
      (List.range 20).map fun d => (aTpDom d, 0x101002) }

theorem ready_wf : Registers.wf ready = true := by decide +kernel
theorem ready_admits : HostAdmits ready hdr := by unfold HostAdmits; decide +kernel

/-- `s` with stack `st` in service. -/
def withStack (s : State) (st : Nat) : State := (s.setBit aHubMeminv st true).setFld (aPbMemstat (st / 8) (st % 8)) 2 0 memInService

/-- Context 0 has die 0 and all of its SRAM. -/
def ctx0 : State := (ready.setFld (aHubCtxcfg 0) 11 0 1).wr (aTdCtxwin 0 0) 0x07FF8000

/-- The 32 bytes of a figure: its words, zeros after them. -/
def figure (ws : List Nat) : List Byte := padTo 32 (ws.flatMap (leBytes 4))

/-- Caller 0 of die 0 is ready to launch figure `f` for context 0, in a machine past the figure's floor. -/
def atFigure (s : State) (f : List Byte) : State :=
  ((setCtxState s 0 ctxRunning).setCaller 0 0 { ctx := some 0, st := .floor, fetched := [(0, f)] }).setCc 0 0 0 { }

/-- Caller 0 of die 0 runs `r`. -/
def running (s : State) (r : Running) : State :=
  ((setCtxState s 0 ctxRunning).setCaller 0 0 { ctx := some 0, st := .running, run := some r }).setCc 0 0 0 { }

/-- MATMUL's, VECMAP's and the other figures' words: operation, layer and operator 0, descriptor at SRAM 0x40. -/
def figureOf (op : Nat) : List Byte := figure [op, 0, 0, 0, 0, if op ≤ 6 then 0x40 else 0]

/-- A figure of opcode `op` with descriptor `b` at SRAM 0x40. -/
def withDesc (op : Nat) (b : List Byte) : State := (atFigure ctx0 (figureOf op)).poke (sramPa 0 0x40) b

/-- A descriptor whose bytes are given by position, 0 elsewhere. -/
def desc (es : List (Nat × Nat)) : List Byte :=
  (List.range 64).map fun i => match es.find? (fun e => e.1 = i) with | some e => BitVec.ofNat 8 e.2 | none => 0

/-- BF16 by BF16, K = 8, one unit; parts 1 or 2. -/
def matBytes (parts : Nat) : List Byte := desc [(24, 8), (32, 1), (36, 0x66), (39, parts)]

/-- A figure of class `op` that has nothing left to do, and a MATMUL with every partial in. -/
def doneRun (op : Nat) : Running := { fig := figureOf op, ctx := 0, win := 0x07FF8000, launch := 0, work := .done, newPc := 1 }
def matRun (w : Work) (parts : Nat) : Running :=
  { fig := figureOf 1, desc := matBytes parts, ctx := 0, win := 0x07FF8000, launch := 0, work := w, newPc := 1 }

theorem crc32_append (r : BitVec 32) (xs ys : List Byte) (q : BitVec 32) (h : xs.foldl crc32Byte r = q) :
    (xs ++ ys).foldl crc32Byte r = ys.foldl crc32Byte q := by rw [List.foldl_append, h]

/-- The active plan: entry 1 is DATA of context 0, and its one row gives input 0 to it. -/
def planned (s : State) : State :=
  ((s.wr (planWordAddr 0 32) 1).wr (planWordAddr 0 4) 1).wr (planWordAddr 0 0x20000) 1

/-! ### Witnesses: the machine and the host's messages -/

/-- LOAD of context 63 at the front of the queue. -/
def queued : State := { ready with pending := [.load hdr 63, .slotStart] }

theorem witness_StepRunsFrontCommand :
    queued.pending = .load hdr 63 :: [.slotStart] ∧ State.reset.pending = [] ∧ domOn State.reset 16 = false := by decide +kernel

theorem witness_StepKeepsCanonicalForm :
    Memory.wf queued = true ∧ Registers.wf queued = true ∧ ∃ t, step queued = .next t :=
  ⟨by decide +kernel, by decide +kernel, _, rfl⟩

theorem witness_StepTakesOneCommand : ∃ t, step queued = .next t := ⟨_, rfl⟩

theorem witness_UnappliedHostMessages :
    hostPart (.load hdr 63) = some (hdr, .ctx 63) ∧ hostPart (.load { hdr with x15 := true } 63) = some ({ hdr with x15 := true }, .ctx 63) ∧
      hostPart (.load { hdr with rsvd := 1 } 63) = some ({ hdr with rsvd := 1 }, .ctx 63) ∧ hostOpen State.reset = false ∧
      hostOpen ready = true ∧ true ≠ ready.x15Host ∧ hdr.x15 = ready.x15Host ∧ ctxPrivileged ready hdr.ch = false ∧
      (let s := ready.setFld aHubBoot 31 28 2
       hostOpen s = true ∧ ctxPrivileged s hdr.ch = false ∧ bootState s ≠ bootReady ∧ HostKind.ctx 63 ≠ .reg) := by decide +kernel

theorem witness_ContextChannelIsolation :
    let s := ready.setBit aDbgChpriv 1 true
    hostOpen s = true ∧ ctxPrivileged s hdr.ch = true ∧ hostPart (.load hdr 63) = some (hdr, .ctx 63) ∧
      chanReaches s hdr.ch 63 = false ∧ apertureReach s hdr.ch 0x7080000 = false := by decide +kernel

theorem witness_MessagesToHost :
    (let s := ready.setFld aHlkState 2 0 3; hostUp s = true) ∧ hostUp ready = false ∧ ready.retq.length < 4096 ∧
      (let s := { ready with retq := List.replicate 4096 { msg := .trace 0 0 0 [] } }; hostUp s = false ∧ s.retq.length = 4096) ∧
      prtState (ready.setFld aPrtState 2 0 3) ∈ [3, 4, 5] ∧ prtState (ready.setFld aPrtState 2 0 5) ∈ [3, 4, 5] := by decide +kernel

theorem witness_RegisterAccess :
    HostAdmits ready hdr ∧ aHubBoot % 4 = 0 ∧ (∃ r, regAt aHubBoot = some r ∧ regOn ready r aHubBoot = true) ∧
      latchOf ready (.host hdr.ch) = none ∧ (zeros 512).length = 4 * 128 ∧ 0 + 128 ≤ 128 ∧ (zeros 704).length = 4 * (48 + 128) := by
  refine ⟨ready_admits, by decide +kernel, ?_, by decide +kernel⟩
  exact ⟨_, rfl, by decide +kernel⟩

theorem witness_AccessErrors :
    HostAdmits ready hdr ∧ (0x30000C1 : Nat) % 4 ≠ 0 ∧ regAt 0x1C00000 = none ∧ regAt 0x2FFFFFC = none ∧ regAt 0x3080000 = none ∧ regAt 0xA000000 = none ∧
      ready.boot.island = true ∧
      ({ ready with pins := { ready.pins with i3cPtr := 2 } }).pins.i3cPtr = (2 : Word) :=
  ⟨ready_admits, by decide +kernel⟩

/-- The module with stack 31 in service. -/
def stack31 : State := withStack ready 31

theorem stack31_admits : HostAdmits stack31 hdr := by unfold HostAdmits; decide +kernel

theorem witness_HostMemory :
    HostAdmits stack31 hdr ∧ hostWriteBad stack31 0x1F8FFFFFFF8 (zeros 8) = none ∧
      memWritable stack31 masterHost 0x1F8FFFFFFF8 8 = .ok ∧ 0x1F8FFFFF800 % 128 = 0 ∧
      hostReach stack31 0x1F8FFFFF800 2048 = true ∧ (memRead (accepted stack31 hdr) masterHost 0x1F8FFFFF800 2048).2 = .ok :=
  ⟨stack31_admits, by decide +kernel⟩

/-! ### Witnesses: contexts, Callers and figures -/

/-- Context 0, on die 0 with all of its SRAM, in a state. -/
def inState (v : Nat) : State := setCtxState ctx0 0 v

theorem inState_admits : ∀ v ∈ [0, 1, 2, 3, 4], HostAdmits (inState v) hdr := by unfold HostAdmits; decide +kernel

theorem inState_still : ∀ v ∈ [0, 1, 2, 3, 4], ctxState (inState v) 0 = v ∧ stopping (inState v) 0 = false ∧ onCall (inState v) 0 = 0 ∧
    diesServe (inState v) 0 = true := by decide +kernel

theorem witness_LoadAndUnload :
    HostAdmits (inState 0) hdr ∧ ctxState (inState 0) 0 = ctxEmpty ∧ HostAdmits (inState 1) hdr ∧ ctxState (inState 1) 0 ≠ ctxEmpty ∧
      (∀ v ∈ [1, 2, 4], HostAdmits (inState v) hdr ∧ ctxState (inState v) 0 ∈ [ctxIdle, ctxReady, ctxHeld] ∧
        stopping (inState v) 0 = false ∧ onCall (inState v) 0 = 0) := by
  unfold HostAdmits; decide +kernel

theorem witness_StartStepAndRun :
    HostAdmits (inState 1) hdr ∧ prtState (inState 1) ≠ 4 ∧ prtState (inState 1) ≠ 5 ∧ ctxState (inState 1) 0 = ctxIdle ∧
      diesServe (inState 1) 0 = true ∧ stopping (inState 1) 0 = false ∧ HostAdmits (inState 2) hdr ∧
      ctxState (inState 2) 0 = ctxReady ∧ leaving (inState 2) 0 = false ∧ diesServe (inState 2) 0 = true ∧
      inDieSet (inState 1) 0 0 = true := by
  unfold HostAdmits; decide +kernel

/-- Context 0 with a preemption that waits for its Callers. -/
def preempting : State := (inState 3).setCtx 0 { stops := [(.preempt, keyOf hdr)] }

theorem witness_ResumeAndPreempt :
    HostAdmits (inState 4) hdr ∧ ctxState (inState 4) 0 = ctxHeld ∧ diesServe (inState 4) 0 = true ∧
      HostAdmits (inState 3) hdr ∧ ctxState (inState 3) 0 = ctxRunning ∧
      (preempting.ctx 0).stops = [(.preempt, keyOf hdr)] ∧ onCall preempting 0 = 0 ∧ ctxState preempting 0 = ctxRunning := by
  unfold HostAdmits; decide +kernel

/-- A half that fills half of a stack; the bases of the halves of stack 31. -/
def halfBytes : Nat := 0x480000000
def halfA : Nat := 0x1F000000000
def halfB : Nat := halfA + halfBytes

/-- Stack 31 in service and context 0 idle. -/
def saveable : State := withStack (inState 1) 31

def saveOp : SaveOp := { half := BitVec.ofNat 48 halfA, gen := 1, prior := 1, zeroed := true }

def saving : State := (setCtxState saveable 0 ctxSaving).setCtx 0 { save := some (saveOp, keyOf hdr) }

theorem saveable_admits : HostAdmits saveable hdr := by unfold HostAdmits; decide +kernel

theorem imageSize_le (s : State) (c : CtxId) :
    imageSize s c ≤ (placeSections s c (diesOf (s.rd (aHubCtxcfg c)).toNat) 256).2 + 32768 := by
  have h : (ownedObjects s c).length ≤ 4096 := by
    refine Nat.le_trans (List.length_filter_le _ _) ?_
    exact Nat.le_of_eq List.length_finRange
  rw [imageSize, up64]
  omega

/-- A committed image of an IDLE context without dies: its header, with generation 1. -/
def imageHeader : List Byte := zeros 8 ++ leBytes 8 1 ++ zeros 34 ++ [1] ++ zeros 197

/-- The header's check bytes and mark. -/
def imageBytes : List Byte := imageHeader ++ leBytes 4 0x340BD313 ++ leBytes 4 0x434F4D54

theorem crc_image : crc32 imageHeader = 0x340BD313#32 := by
  have e : imageHeader = (zeros 8 ++ leBytes 8 1 ++ zeros 34 ++ [1]) ++ (zeros 49 ++ (zeros 49 ++ (zeros 49 ++ zeros 50))) := by
    decide +kernel
  have h₁ : (zeros 8 ++ leBytes 8 1 ++ zeros 34 ++ [1]).foldl crc32Byte 0xFFFFFFFF#32 = 0xE7F96C00#32 := by decide +kernel
  have h₂ : (zeros 49).foldl crc32Byte 0xE7F96C00#32 = 0xF25C03F5#32 := by decide +kernel
  have h₃ : (zeros 49).foldl crc32Byte 0xF25C03F5#32 = 0x325A7D57#32 := by decide +kernel
  have h₄ : (zeros 49).foldl crc32Byte 0x325A7D57#32 = 0xB7D98429#32 := by decide +kernel
  have h₅ : (zeros 50).foldl crc32Byte 0xB7D98429#32 = 0xCBF42CEC#32 := by decide +kernel
  rw [crc32, e, crc32_append _ _ _ _ h₁, crc32_append _ _ _ _ h₂, crc32_append _ _ _ _ h₃, crc32_append _ _ _ _ h₄, h₅]
  decide +kernel

/-- A half whose first bytes are those of the image is committed; one without COMMIT is not. -/
theorem committed_of (s : State) (half : Nat) (h : s.bytes half 256 = imageBytes) : CommittedHalf s half halfBytes 1 := by
  have e : imageBytes.take 248 = imageHeader := by decide +kernel
  unfold CommittedHalf
  rw [h]
  exact ⟨by decide +kernel, by rw [e, crc_image]; decide +kernel, by decide +kernel, 256, by decide +kernel, by
    rw [show s.bytes (half + 256) (256 - 256) = [] from rfl]; decide +kernel⟩

theorem not_committed_of (s : State) (half : Nat) (h : fieldAt (s.bytes half 256) 252 4 ≠ 0x434F4D54) (g : Nat) :
    ¬ CommittedHalf s half halfBytes g := fun q => h q.1

/-- The image in either half of an area, the other half empty. -/
def imaged (half : Nat) : State := (withStack (inState 0) 31).poke half imageBytes

theorem imaged_halves :
    (CommittedHalf (imaged halfA) halfA halfBytes 1 ∧ ∀ g, ¬ CommittedHalf (imaged halfA) halfB halfBytes g) ∧
      (CommittedHalf (imaged halfB) halfB halfBytes 1 ∧ ∀ g, ¬ CommittedHalf (imaged halfB) halfA halfBytes g) ∧
      (∀ g, ¬ CommittedHalf (withStack (inState 0) 31) halfA halfBytes g) ∧
      ∀ g, ¬ CommittedHalf (withStack (inState 0) 31) halfB halfBytes g :=
  ⟨⟨committed_of _ _ (by decide +kernel), not_committed_of _ _ (by decide +kernel)⟩,
    ⟨committed_of _ _ (by decide +kernel), not_committed_of _ _ (by decide +kernel)⟩,
    not_committed_of _ _ (by decide +kernel), not_committed_of _ _ (by decide +kernel)⟩

/-- The image in a half of `saveable`'s area. -/
def saved (half : Nat) : State := saveable.poke half imageBytes

theorem witness_SaveImage :
    (∀ s ∈ [saveable, saved halfA, saved halfB], HostAdmits s hdr ∧ (leBytes 8 halfBytes).length = 8 ∧
      ctxState s 0 ∈ [ctxIdle, ctxReady, ctxHeld] ∧ (s.ctx 0).stops = [] ∧ onCall s 0 = 0 ∧ sentFlits s 0 = false ∧
      partialsWait s 0 = false ∧ s.ecc = [] ∧ areaOk s (BitVec.ofNat 48 halfA) (fieldAt (leBytes 8 halfBytes) 0 8) = true ∧
      localPa (ownModule s) halfA = halfA ∧ place (ownModule s) halfA = .stack 31 0 ∧ stackServes s 31 = true) ∧
    imageSize saveable 0 ≤ fieldAt (leBytes 8 halfBytes) 0 8 ∧
    CommittedHalf (saved halfA) halfA halfBytes 1 ∧ (∀ g, ¬ CommittedHalf (saved halfA) halfB halfBytes g) ∧
    CommittedHalf (saved halfB) halfB halfBytes 1 ∧ (∀ g, ¬ CommittedHalf (saved halfB) halfA halfBytes g) ∧
    ctxState (setCtxState saveable 0 ctxRunning) 0 = ctxRunning ∧
    (saving.ctx 0).save = some (saveOp, keyOf hdr) ∧ sentFlits saving 0 = false ∧ saveOp.zeroed = true ∧ ctxLinesLeft saving 0 = false ∧
      saving.ecc = [] ∧ (∀ d, inDieSet saving 0 d = true → sramServes saving d = true) ∧
      memWritable saving masterHub halfA 256 = .ok ∧ halfA < 0x20000000000 := by
  refine ⟨by unfold HostAdmits; decide +kernel, Nat.le_trans (imageSize_le _ _) (by decide +kernel),
    committed_of _ _ (by decide +kernel), not_committed_of _ _ (by decide +kernel), committed_of _ _ (by decide +kernel),
    not_committed_of _ _ (by decide +kernel), by decide +kernel⟩

/-- A restore in progress from the halves of stack 31. -/
def restoreOp : RestoreOp := { half := BitVec.ofNat 48 halfA, other := BitVec.ofNat 48 halfB, size := halfBytes, dies := 0 }

def restoring (s : State) : State := (setCtxState s 0 ctxRestoring).setCtx 0 { restore := some (restoreOp, keyOf hdr) }

/-- An image without dies fits every slot; one of die 0 with a section of its 128 MiB does not fit an empty window. -/
theorem witness_RestoreImage :
    (∀ s ∈ [imaged halfA, imaged halfB, withStack (inState 0) 31], HostAdmits s hdr ∧ (leBytes 8 halfBytes).length = 8 ∧
      fieldAt (leBytes 8 halfBytes) 0 8 = halfBytes ∧ ctxState s 0 = ctxEmpty ∧ areaOk s (BitVec.ofNat 48 halfA) halfBytes = true ∧
      s.ecc = [] ∧ place (ownModule s) halfA = .stack 31 0 ∧ stackServes s 31 = true ∧ windowsFit s 0 imageBytes = true) ∧
    windowsFit (imaged halfA) 0 (zeros 48 ++ [2] ++ zeros 23 ++ leBytes 4 4 ++ leBytes 4 sectionHead ++ zeros 176) = false ∧
    (restoring (imaged halfA)).ctx 0 = { restore := some (restoreOp, keyOf hdr) } ∧ ctxLinesLeft (restoring (imaged halfA)) 0 = false ∧
    CommittedHalf (restoring (imaged halfA)) halfA restoreOp.size 1 ∧ (restoring (imaged halfA)).ecc = [] ∧
    place (ownModule (restoring (imaged halfA))) halfA = .stack 31 0 ∧ 0 + restoreOp.size ≤ 0x900000000 ∧ 256 ≤ restoreOp.size ∧
    stackServes (restoring (imaged halfA)) 31 = true ∧ windowsFit (restoring (imaged halfA)) 0 imageBytes = true ∧
    (∀ g, ¬ CommittedHalf (restoring (inState 0)) halfA restoreOp.size g) ∧
    ∀ g, ¬ CommittedHalf (restoring (inState 0)) halfB restoreOp.size g :=
  ⟨by unfold HostAdmits; decide +kernel, by decide +kernel, by decide +kernel, by decide +kernel, committed_of _ _ (by decide +kernel),
    by decide +kernel, by decide +kernel, by decide +kernel, by decide +kernel, by decide +kernel, by decide +kernel,
    not_committed_of _ _ (by decide +kernel), not_committed_of _ _ (by decide +kernel)⟩

/-- Caller 0 of die 0 has context 0 at the front of its queue. -/
def queueing : State := (inState 2).setCaller 0 0 { queue := [0, 63] }

/-- Caller 0 of die 0 is about to fetch its first figure, of the table at SRAM 0. -/
def fetching : State :=
  (((inState 3).setCaller 0 0 { ctx := some 0, st := .fetch }).setCc 0 0 0 { table := 0x80000000 }).poke (sramPa 0 0) (figureOf 10)

/-- All Callers of context 0 have launched HALT. -/
def halted : State :=
  (List.finRange 4).foldl (fun s k => s.setCc 0 k 0 { halted := true }) (inState 3)

theorem witness_StepFromQueueToEnd :
    (queueing.caller 0 0).queue = 0 :: [63] ∧ callerFree (queueing.caller 0 0) = true ∧ dieRuns queueing 0 = true ∧
      copyHolds queueing 0 = false ∧ (queueing.cc 0 0 0).pend = none ∧ (fetching.caller 0 0).ctx = some 0 ∧
      dieRuns fetching 0 = true ∧ (fetching.caller 0 0).run = none ∧ (fetching.caller 0 0).st = .fetch ∧
      (fetching.cc 0 0 0).pend = none ∧ fetchedAt (fetching.caller 0 0) (fetching.cc 0 0 0).pc = none ∧
      (fetching.cc 0 0 0).table.getLsbD 31 = true ∧ fetching.ecc = [] ∧ fetching.bit (aFltInj 1) 31 = false ∧
      fetching.bit (aDbgReelctl 0) 31 = false ∧ inWindow (ctxWindow fetching 0 0) 0 32 = true ∧ stepOver halted 0 = true ∧
      fatalLatched halted = false := by decide +kernel

/-- A launchable control figure of each opcode. -/
theorem witness_ControlFigures :
    (∀ op ∈ [7, 8, 9, 10], Launches (atFigure ctx0 (figureOf op)) 0 0 op 0 (figureOf op)) ∧
      (let s := atFigure ctx0 (figureOf 9)
       windowOk s 0 (ctxWindow s 0 0) (getF (s.cc 0 0 0).table 26 0 / 32 * 32 + 32 * (skipTarget (figureOf 9)).toNat) 32 = true) := by
  unfold Launches; decide +kernel

theorem witness_MatmulLaunch : ∀ parts ∈ [1, 2, 255],
    CleanLaunch (withDesc 1 (matBytes parts)) 0 0 1 0 (figureOf 1) (matBytes parts) ∧ checkMat (matBytes parts) = none ∧
      (matDesc (matBytes parts)).acc = 0 ∧ (matDesc (matBytes parts)).rnd ≠ 2 ∧ (matDesc (matBytes parts)).outMode = 0 ∧
      AllInWindow (withDesc 1 (matBytes parts)) 0 0 ((matDesc (matBytes parts)).reads ++ (matDesc (matBytes parts)).writes) ∧
      (matDesc (matBytes parts)).cellMod = ownModule (withDesc 1 (matBytes parts)) ∧ (matDesc (matBytes parts)).parts = parts := by
  unfold CleanLaunch Launches AllInWindow; decide +kernel

/-- VECMAP of operation 1 on one BF16 element; SAMPLE of one BF16 logit. -/
def vecBytes : List Byte := desc [(16, 1), (20, 1), (21, 0x77), (23, 1), (37, 1)]
def sampBytes : List Byte := desc [(4, 1), (8, 0x71), (18, 0x80), (19, 0x3F)]

theorem witness_VectorAndSample :
    (CleanLaunch (withDesc 2 vecBytes) 0 0 2 0 (figureOf 2) vecBytes ∧ checkVec vecBytes = none ∧ (vecDesc vecBytes).sends = false ∧
      (vecDesc vecBytes).expPartials = 0 ∧ (vecDesc vecBytes).parts < 2 ∧ (vecDesc vecBytes).op ≠ 0x19 ∧
      AllInWindow (withDesc 2 vecBytes) 0 0
        (vecReads (withDesc 2 vecBytes) 0 (vecDesc vecBytes) ++ vecWrites (withDesc 2 vecBytes) 0 (vecDesc vecBytes))) ∧
    CleanLaunch (withDesc 6 sampBytes) 0 0 6 0 (figureOf 6) sampBytes ∧ checkSamp sampBytes = none ∧
      (sampDesc sampBytes).entropy = false ∧
      AllInWindow (withDesc 6 sampBytes) 0 0 ((sampDesc sampBytes).reads ++ (sampDesc sampBytes).writes) := by
  unfold CleanLaunch Launches AllInWindow; decide +kernel

/-- A MOVE or STREAM of one 128-byte row to SRAM 0x80; a SEND of 240 bytes to entry 1 over port 0. -/
def xferBytes : List Byte := desc [(8, 0x80), (12, 128)]
def sendBytes : List Byte := desc [(4, 240), (8, 1), (10, 1)]

def sendState : State := planned (withDesc 5 sendBytes)

/-- A MOVE of the same descriptor that restarts at segment 3. -/
def restarted : State := (withDesc 3 xferBytes).setCc 0 0 0 { relaunch := true, xfer := some { desc := xferBytes, seg := 3 } }

/-- A finished transfer and a finished SEND. -/
def doneXfer : Running := { doneRun 3 with desc := xferBytes, work := .xfer 1 none false }
def doneSend : Running := { doneRun 5 with desc := sendBytes, work := .send 1 }

theorem witness_TransfersAndAcknowledgement :
    (∀ op ∈ [3, 4], CleanLaunch (withDesc op xferBytes) 0 0 op 0 (figureOf op) xferBytes ∧
      ((withDesc op xferBytes).cc 0 0 0).relaunch = false ∧ checkXfer xferBytes (op = 4) = none ∧ (xferDesc xferBytes).entry = 0 ∧
      AllInWindow (withDesc op xferBytes) 0 0 ((xferDesc xferBytes).ranges true)) ∧
    (CleanLaunch restarted 0 0 3 0 (figureOf 3) xferBytes ∧ (restarted.cc 0 0 0).relaunch = true ∧
      xferStart (restarted.cc 0 0 0) xferBytes = 3) ∧
    (CleanLaunch sendState 0 0 5 0 (figureOf 5) sendBytes ∧ checkSend sendBytes = none ∧
      entryRefused sendState (sendDesc sendBytes).entry kindData 0 0 (sendDesc sendBytes).ports = false ∧
      inWindow (ctxWindow sendState 0 0) (sendDesc sendBytes).src (sendDesc sendBytes).len = true) ∧
    (∀ r ∈ [doneRun 1, doneRun 2, doneRun 7, doneXfer, doneSend], ((running ctx0 r).caller 0 0).run = some r ∧
      fatalLatched (running ctx0 r) = false ∧ hashed (running ctx0 r) r = false ∧ FigureDone (running ctx0 r) 0 0 r) ∧
    (let r := matRun (.accum 0) 1
     let s := running ctx0 r
     (s.caller 0 0).run = some r ∧ fatalLatched s = false ∧ hashed s r = false ∧ r.work = .accum 0 ∧ figOp r.fig = 1 ∧
      s.ecc = [] ∧ s.bit (aFltInj 1) 31 = false ∧ s.bit (aDbgReelctl 0) 31 = false) := by
  unfold CleanLaunch Launches AllInWindow
  refine ⟨by decide +kernel, by decide +kernel, by decide +kernel, ?_, by decide +kernel⟩
  intro r h
  simp only [List.mem_cons, List.not_mem_nil, or_false] at h
  rcases h with rfl | rfl | rfl | rfl | rfl <;> exact ⟨by decide +kernel, by decide +kernel, by decide +kernel, by simp only [FigureDone, doneRun, doneXfer, doneSend]; decide +kernel⟩
/-! ### Witnesses: sync objects, anchor cells and reductions -/

/-- Object 4095 enabled for context 0, saturating or wrapping. -/
def syncing (sat : Bool) : State := (ctx0.setBit (aHubSynccfg 4095) 15 true).setBit (aHubSynccfg 4095) 14 sat

theorem witness_SignalsAtHub :
    (∀ sat, syncAllowed (syncing sat) 4095 0 = true ∧ syncSat (syncing sat) 4095 = sat) ∧ syncAllowed ctx0 4095 0 = false ∧
      syncAllowed (syncing true) 4095 63 = false := by decide +kernel

/-- A SIGNAL, a WAITREG, a WAITCANCEL and a READ of one Caller in transit: each is in its turn once those
before it have gone. -/
def queuedMsgs : List Msg := [.signal 4095 1 0 0 0, .waitreg 4095 1 0 0 0, .waitcancel 4095 0 0, .read 4095 0 0 0]
def transit (n : Nat) : State := { syncing true with net := queuedMsgs.drop n }

theorem witness_inTurn :
    (∀ n ∈ [0, 1, 2, 3], queuedMsgs[n]? = (queuedMsgs.drop n).head? ∧
      (∀ m, queuedMsgs[n]? = some m → inTurn (transit n) m = true)) ∧
      (∀ m ∈ queuedMsgs.drop 1, inTurn (transit 0) m = false) ∧ inTurn (syncing true) (.signal 4095 1 0 0 0) = true ∧
      inTurn { syncing true with net := [.read 4095 0 0 0, .signal 4095 1 0 0 0] } (.signal 4095 1 0 0 0) = false := by decide +kernel

/-- The sum reaches 2^20, in each mode, or falls one short of it. -/
theorem witness_SignalsAtHub_edge :
    ∀ sat, let s := (syncing sat).setFld (aHubSyncval 4095) 19 0 0xFFF01
      syncAllowed s 4095 0 = true ∧ syncSat s 4095 = sat ∧ (syncVal s 4095).toNat + 255 = 2 ^ 20 := by decide +kernel

/-- A threshold that is met and one that is not, in each mode. -/
theorem witness_WaitsAtHub :
    ∀ sat, syncAllowed (syncing sat) 4095 0 = true ∧ waitMet sat (syncVal (syncing sat) 4095) 0 = true ∧
      waitMet sat (syncVal (syncing sat) 4095) 1 = false := by decide +kernel

/-- Caller 0 of die 0 waits at a WAIT for object 4095; or its SKIP_IF waits for the value of object 4095. -/
def waitFigure : List Byte := figure [7 + 2 ^ 18, 0, 4095 + 2 ^ 12]
def waiting : State :=
  (setCtxState ctx0 0 ctxRunning).setCaller 0 0 { ctx := some 0, st := .wait, fetched := [(0, waitFigure)] }
def skipRun : Running :=
  { fig := figure [9, 0, 0, 0, 0, 5, 4095, 2], ctx := 0, win := 0x07FF8000, launch := 0, work := .value, newPc := 1 }
def signalSent : State := { running ctx0 (doneRun 7) with remotes := [{ x := 15, tag := 0xFFFF, what := .signal 0 0 0 }] }

theorem witness_SyncAnswersAtCaller :
    waitsFor waiting 4095 0 0 0 = true ∧ waitsFor waiting 4094 0 0 0 = false ∧
      skipWaiting (running ctx0 skipRun) 4095 0 0 0 = some skipRun ∧ hashed (running ctx0 skipRun) skipRun = false ∧
      (signalSent.caller 0 0).ctx = some 0 ∧ (signalSent.caller 0 0).run.isSome = true ∧
      remoteOf signalSent 15 0xFFFF = some (.signal 0 0 0) := by decide +kernel

/-- Anchor cell 255 in a state. -/
def cellIn (st : CellSt) (count : BitVec 8) (rels : BitVec 255) : State :=
  { ctx0 with cells := SMap.set (fun _ => {}) [] 255 { st := st, tag := 7, count := count, rels := rels } }

theorem witness_AnchorCellMessages :
    (ctx0.cell 255).st = .free ∧ (254 : BitVec 8).toNat < (255 : BitVec 8).toNat ∧ (255 : BitVec 8) ≠ 1 ∧
      ((cellIn .collecting 2 0).cell 255).st = .collecting ∧ ((cellIn .collecting 2 0).cell 255).tag ≠ 8 ∧
      ((cellIn .collecting 2 0).cell 255).count ≠ 3 ∧
      (∀ r ∈ [0, 1], let s := cellIn .done 2 (BitVec.ofNat 255 r)
        (s.cell 255).st = .done ∧ (s.cell 255).tag = 7 ∧ (1 : BitVec 8).toNat < (s.cell 255).count.toNat) ∧
      bitCount (withBit (0 : BitVec 255) 1) ≠ (2 : BitVec 8).toNat ∧ bitCount (withBit (1 : BitVec 255) 1) = (2 : BitVec 8).toNat := by
  decide +kernel

/-- One participant, and 255 in falling order. -/
def posts (n : Nat) : List (Nat × BitVec 32 × DieId × CallerId) :=
  (List.range n).reverse.map fun i => (i, BitVec.ofNat 32 i, Fin.ofNat 12 i, Fin.ofNat 4 i)

theorem witness_AnchorOrderIndependent :
    (ctx0.cell 255).st = .free ∧ (∀ n ∈ [1, 2, 255], 1 ≤ n ∧ n ≤ 255) ∧ ∀ n, ((posts n).map (·.1)).Perm (List.range n) := by
  refine ⟨by decide +kernel, by decide, fun n => ?_⟩
  rw [posts, List.map_map]
  exact (List.map_id _ ▸ List.reverse_perm _ : ((List.range n).reverse.map id).Perm (List.range n))

/-- BF16 by BF16, K = 8, seven columns, two participants, one expected partial. -/
def mat7 : List Byte := desc [(24, 8), (28, 6), (32, 1), (36, 0x66), (39, 2), (44, 1)]
def mat7Run (w : Work) (a : Option (Option Int)) (mod : Nat) : Running :=
  { fig := figureOf 1, desc := mat7.set 45 (BitVec.ofNat 8 mod), ctx := 0, win := 0x07FF8000, launch := 0, work := w, anchor := a,
    newPc := 1 }

theorem awaiting_only (d : DieId) (k : CallerId) (r : Running) (h : ((running ctx0 (mat7Run .result none 0)).caller d k).run = some r) :
    d = 0 ∧ k = 0 := by
  by_cases hn : (0 : DieId) = d ∧ (0 : CallerId) = k
  · exact ⟨hn.1.symm, hn.2.symm⟩
  · have e : (running ctx0 (mat7Run .result none 0)).caller d k = (setCtxState ctx0 0 ctxRunning).caller d k :=
      (rfl : _ = ((setCtxState ctx0 0 ctxRunning).setCaller 0 0
        { ctx := some 0, st := .running, run := some (mat7Run .result none 0) }).caller d k).trans (State.caller_setCaller_ne _ _ hn)
    rw [e] at h
    exact absurd h (by simp [State.caller, setCtxState, State.setFld, State.wr, ctx0, ready, SMap.get, State.reset])

/-- A wide partial of seven sums at anchor NONE, and one at anchor 0. -/
def widePayload (anchor : Nat) : List Byte := padTo 240 (leBytes 2 anchor ++ leBytes 2 7)

theorem witness_AnchorAndPartials :
    (∀ here, let r := mat7Run .result none (if here = true then 0 else 7)
      ((running ctx0 r).caller 0 0).run = some r ∧ awaits (ownModule (running ctx0 r)) r 0 0 here = true ∧ figOp r.fig = 1 ∧
        (matDesc r.desc).acc = 0 ∧ (matDesc r.desc).outMode = 0 ∧ (running ctx0 r).ecc = [] ∧
        (running ctx0 r).bit (aFltInj 1) 31 = false) ∧
    (∀ d k r, ((running ctx0 (mat7Run .result none 0)).caller d k).run = some r → d = 0 ∧ k = 0) ∧
    (let r := mat7Run (.accum 7) (some none) 0
     let s := running ctx0 r
     partialTaker s 0 (planEntry s (activeBank s) 1).ctx = some (0, r, 7) ∧ figOp r.fig = 1 ∧ (matDesc r.desc).acc = 0 ∧
      (let w := wideDecode (widePayload 0x8000)
       w.anchor = anchorField (r.anchor.getD none) ∧ 1 ≤ w.count ∧ w.count ≤ 7 ∧ w.first + w.count ≤ partialSize r) ∧
      (wideDecode (widePayload 0)).anchor ≠ anchorField (r.anchor.getD none)) :=
  ⟨by decide +kernel, awaiting_only, by decide +kernel⟩

/-! ### Witnesses: paging, transfers, stacks -/

/-- A directory whose last root entry leads to the last entries of tables 1 and 2, and there to the first page of stack 31. -/
def walkable : State :=
  let put (s : State) (table : Nat) (e : Nat) : State := s.poke (dirPa (table * 0x1000 + 8 * 511)) (leBytes 8 e)
  put (put (put (ctx0.wr (aHubCtxptr1 0) 0x80000000) 0 (2 ^ 63 + 1)) 1 (2 ^ 63 + 2)) 2 (2 ^ 63 + 2 ^ 62 + 0x1F000000000)

/-- The entry that a walk of the highest VA finds in a table. -/
def lastEntry (s : State) (table : Nat) : Nat := leNat (s.bytes (dirPa (table % 4096 * 0x1000 + 8 * 511)) 8)

def walk (stale : Bool) : Walk := { tlb := 43, ctx := 0, vpn := 0x7FFFFFF, stale := stale }
def walked (stale : Bool) : State := { ctx0 with walks := [walk stale] }

theorem witness_WalksAndReplies :
    (walkable.ecc = [] ∧ 0xFFFFFFFFFFFF / 2 ^ 39 % 512 = 511 ∧ 0xFFFFFFFFFFFF / 2 ^ 30 % 512 = 511 ∧ 0xFFFFFFFFFFFF / 2 ^ 21 % 512 = 511 ∧
      ((walkable.rd64 (aHubCtxptr0 0)).toNat.testBit 63 = true ∧ bits (walkable.rd64 (aHubCtxptr0 0)).toNat 62 12 = 0) ∧
      (let e1 := lastEntry walkable (walkable.rd64 (aHubCtxptr0 0)).toNat
       let e2 := lastEntry walkable e1
       let leaf := lastEntry walkable e2
       e1.testBit 63 = true ∧ bits e1 62 12 = 0 ∧ e2.testBit 63 = true ∧ bits e2 62 12 = 0 ∧ leaf.testBit 63 = true ∧
        bits leaf 60 56 = 0 ∧ bits leaf 20 0 = 0 ∧ leafOk (ownModule walkable) (bits leaf 47 21 * 0x200000) = true) ∧
      (ctx0.rd64 (aHubCtxptr0 0)).toNat.testBit 63 = false ∧
      (let s := ctx0.wr (aHubCtxptr1 0) 0x80000000
       (s.rd64 (aHubCtxptr0 0)).toNat.testBit 63 = true ∧ (lastEntry s (s.rd64 (aHubCtxptr0 0)).toNat).testBit 63 = false)) ∧
    (∀ b, (walked b).walks.find? (fun w => w.tlb = 43 ∧ w.ctx = 0 ∧ w.vpn = vpnOf 0xFFFFFFFFFFFF) = some (walk b) ∧
      tlbLookup (walked b) 43 0 (vpnOf 0xFFFFFFFFFFFF) = none ∧ ((walked b).tlb.filter fun e => e.tlb = 43).length < tlbSize 43) ∧
    (ctx0.segs.any fun g => g.inval) = false := by decide +kernel

/-- A running MOVE in direction `dir` between 0x1000 and SRAM 0x80. -/
def moveRun (dir : Nat) : Running :=
  { fig := figureOf 3, desc := desc [(1, 0x10), (8, 0x80), (12, 128), (18, dir)], ctx := 0, win := 0x07FF8000, launch := 0,
    work := .xfer 0 none false, newPc := 1 }
def moving (dir : Nat) : State := withStack (running ctx0 (moveRun dir)) 31
def pageEntry : TlbEnt := { tlb := 0, ctx := 0, vpn := 0, ppn := 0xF8000, rd := true, wr := false }
def mapped : State := { moving 0 with tlb := [pageEntry] }
/-- A running STREAM from 0x1000, whose page its own translation buffer holds. -/
def streamRun : Running := { moveRun 0 with fig := figureOf 4 }
def streaming (tlb : List TlbEnt) : State := { withStack (running ctx0 streamRun) 31 with tlb := tlb }
def streamEntry : TlbEnt := { pageEntry with tlb := tlbOf 0 true 0x1000 }
/-- Segments that have moved their lines, between SRAM areas and from stack 31. -/
def theSeg (dir : Fin 3) : Seg :=
  { die := 11, caller := 3, ctx := 0, idx := 0, stream := false, scale := false, dir := dir, va := 0x7FFFF80, sram := 0, len := 128,
    pa := 0x1F000000000, tag := some 0, mover := some 0, pc := 0, issued := 0 }
def issued (dir : Fin 3) : State := { stack31 with segs := [theSeg dir] }

theorem witness_SegmentIssueAndComplete :
    ((segments (xferDesc (moveRun 0).desc))[0]? = some ⟨0x1000, 0x80, 128, false⟩ ∧
      (segments (xferDesc (moveRun 2).desc))[0]? = some ⟨0x1000, 0x80, 128, false⟩) ∧
    (xferOf (moving 0) 0 0 = some (moveRun 0, 0, none, false) ∧ xferOf (moving 2) 0 0 = some (moveRun 2, 0, none, false) ∧
      xferOf (streaming []) 0 0 = some (streamRun, 0, none, false)) ∧
    (∀ dir ∈ [0, 2], isStream (moveRun dir) = false ∧
      ((moving dir).caller 0 0).stop = false ∧ dieRuns (moving dir) 0 = true ∧ (xferDesc (moveRun dir).desc).entry = 0 ∧
      moveWindowOk (moving dir) 0 (moveRun dir) ⟨0x1000, 0x80, 128, false⟩ = true ∧ (xferDesc (moveRun dir).desc).dir = dir ∧
      freeTag (moving dir) 0 0 = some 0) ∧
    (tlbLookup mapped (tlbOf 0 false 0x1000) 0 (vpnOf 0x1000) = some pageEntry ∧ pageEntry.rd = true ∧
      place (ownModule mapped) (pageEntry.ppn.toNat * 0x200000 + 0x1000 % 0x200000) = .stack 31 0x1000 ∧
      stackServes mapped 31 = true ∧ freeTag mapped 0 0 = some 0) ∧
    (isStream streamRun = true ∧ ((streaming []).caller 0 0).stop = false ∧ dieRuns (streaming []) 0 = true ∧ (streaming []).segs = [] ∧
      tlbLookup (streaming [streamEntry]) (tlbOf 0 true 0x1000) 0 (vpnOf 0x1000) = some streamEntry ∧
      stackServes (streaming [streamEntry]) 31 = true) ∧
    (tlbLookup (moving 0) (tlbOf 0 false 0x1000) 0 (vpnOf 0x1000) = none ∧
      walking (moving 0) (tlbOf 0 false 0x1000) 0 0x1000 = false ∧ walking (streaming []) (tlbOf 0 true 0x1000) 0 0x1000 = false) ∧
    (∀ dir ∈ [0, 1, 2], segOf (issued dir) 11 3 0 0 = some (theSeg dir) ∧ (theSeg dir).lines = 0 ∧ (theSeg dir).mover.isSome = true ∧
      xferOf (issued dir) 11 3 = none ∧ place (ownModule (issued dir)) (theSeg dir).pa = .stack 31 0 ∧ stackServes (issued dir) 31 = true ∧
      0 + (theSeg dir).len ≤ 0x900000000 ∧ Memory.wf (issued dir) = true ∧ (issued dir).ecc = [] ∧ (issued dir).now.main = [] ∧
      (issued dir).bit (aFltInj 1) 31 = false ∧ (∀ d : DieId, (issued dir).bit (aDbgReelctl d) 31 = false) ∧
      sramPa 11 (theSeg dir).va % 0x8000000 + (theSeg dir).len ≤ 0x8000000 ∧
      sramPa 11 (theSeg dir).sram % 0x8000000 + (theSeg dir).len ≤ 0x8000000) := by
  exact ⟨⟨rfl, rfl⟩, ⟨rfl, rfl, rfl⟩, by decide +kernel, by decide +kernel, by decide +kernel, by decide +kernel, by decide +kernel⟩

/-- A remote window of module 7 over the last pages of stack 31, for reads and writes. -/
def windowed : State :=
  (stack31.wr (aHubRmtwin0 7) (BitVec.ofNat 32 (2 ^ 31 + 2 ^ 27 + 0xF8000))).wr (aHubRmtwin1 7) (BitVec.ofNat 32 (2 ^ 31 + 0xFC7FF))
def asked : State := { ready with remotes := [{ x := 15, tag := 0xFFFF, what := .host (keyOf hdr) kMemRd }] }

theorem witness_RemoteMemory :
    place (ownModule windowed) 0x1F8FFFFFF80 = .stack 31 0x8FFFFFF80 ∧ localPa (ownModule windowed) 0x1F8FFFFFF80 = 0x1F8FFFFFF80 ∧
      (∀ wr, windowAdmits windowed 7 0x1F8FFFFFF80 128 wr = true ∧ windowAdmits stack31 7 0x1F8FFFFFF80 128 wr = false ∧
        windowAdmits windowed 6 0x1F8FFFFFF80 128 wr = false) ∧
      (memRead windowed masterRemote 0x1F8FFFFFF80 128).2 = .ok ∧ memWritable windowed masterRemote 0x1F8FFFFFF80 128 = .ok ∧
      copyWrite stack31 0 7 0x1F8FFFFFF80 = false ∧ remoteOf asked 15 0xFFFF = some (.host (keyOf hdr) kMemRd) := by decide +kernel

/-- Stack 31 with scrubbing on; with its lowest read tag held; in a state. -/
def scrubbing : State := stack31.setBit (aPbMemctl 3 7) 1 true
def tagged : State :=
  { stack31 with readReqs := [{ requester := 0, st := 31, offset := 0, bytes := 128, tag := 0, issued := 0 }] }
def stackIn (v : Nat) : State := ready.setFld (aPbMemstat 3 7) 2 0 v

theorem witness_StackService :
    (tagsOf stack31 (pbOf 31) = [] ∧ (∀ r ∈ tagsOf tagged (pbOf 31), r.tag.val ≠ 1) ∧
      ∀ t', t' < 1 → ∃ r ∈ tagsOf tagged (pbOf 31), r.tag.val = t') ∧
    stackServes stack31 31 = true ∧ scrubbing.bit (aPbMemctl (pbOf 31) (31 % 8)) 1 = true ∧ stackServes scrubbing 31 = true ∧
      128 * 0x11FFFFFF < 0x900000000 ∧ memState stack31 31 ≠ memOff ∧ memState stack31 31 ≠ memFailed ∧
      memState (stackIn memZeroing) 31 = memZeroing ∧ tdState (ready.setFld (aTdState 11) 2 0 tdInit) 11 = tdInit ∧
      ready.dieOp = none := by decide +kernel

/-! ### Witnesses: the mesh, the plan, the guest -/

/-- A PLAN flit of entry 1 with FIRST set and number 0, without its check bytes; and whole. -/
def flitBody : List Byte := [0x83, 0, 0, 0, 0, 1, 0, 240] ++ zeros 244
def planFlit : List Byte := flitBody ++ leBytes 4 0xD0145CD6

theorem crc_flit : crc32 flitBody = 0xD0145CD6#32 := by
  have e : flitBody = [0x83, 0, 0, 0, 0, 1, 0, 240] ++ (zeros 61 ++ (zeros 61 ++ (zeros 61 ++ zeros 61))) := by decide +kernel
  have h₁ : [0x83, 0, 0, 0, 0, 1, 0, 240].foldl crc32Byte 0xFFFFFFFF#32 = 0xFB163A84#32 := by decide +kernel
  have h₂ : (zeros 61).foldl crc32Byte 0xFB163A84#32 = 0xDEC4A258#32 := by decide +kernel
  have h₃ : (zeros 61).foldl crc32Byte 0xDEC4A258#32 = 0xFDE9C039#32 := by decide +kernel
  have h₄ : (zeros 61).foldl crc32Byte 0xFDE9C039#32 = 0x1A3BBA74#32 := by decide +kernel
  have h₅ : (zeros 61).foldl crc32Byte 0x1A3BBA74#32 = 0x2FEBA329#32 := by decide +kernel
  rw [crc32, e, crc32_append _ _ _ _ h₁, crc32_append _ _ _ _ h₂, crc32_append _ _ _ _ h₃, crc32_append _ _ _ _ h₄, h₅]
  decide +kernel

/-- A flit that holds its CRC is parsed. -/
theorem parse_of (b : List Byte) (hl : b.length = 256) (hc : fieldAt b 252 4 = (crc32 (b.take 252)).toNat) :
    ∃ f, parseFlit b = some f ∧ f.typ = fieldAt b 0 1 % 16 ∧ f.vc = fieldAt b 0 1 / 16 % 4 ∧
      f.ack = BitVec.ofNat 16 (fieldAt b 3 2) ∧ f.first = (fieldAt b 0 1).testBit 7 ∧
      f.seq = BitVec.ofNat 16 (fieldAt b 1 2) ∧ f.entry = BitVec.ofNat 12 (fieldAt b 5 2) ∧ f.plen = fieldAt b 7 1 ∧
      f.payload = (b.drop 8).take 240 := by
  refine ⟨_, by rw [parseFlit, if_neg]; simp [hl, hc], rfl, rfl, rfl, rfl, rfl, rfl, rfl, rfl⟩

theorem flit_parses : ∃ f, parseFlit planFlit = some f ∧ f.typ = tPlan ∧ f.vc = 0 ∧ f.ack = 0 ∧ f.first = true ∧ f.seq = 0 ∧ f.entry = 1 ∧ f.plen = 240 ∧
    f.payload = zeros 240 := by
  obtain ⟨f, h, h₁, h₇, h₈, h₂, h₃, h₄, h₅, h₆⟩ := parse_of planFlit (by decide +kernel) (by
    rw [show planFlit.take 252 = flitBody by decide +kernel, crc_flit]; decide +kernel)
  refine ⟨f, h, ?_, ?_, ?_, ?_, ?_, ?_, ?_, ?_⟩
  · rw [h₁]; decide +kernel
  · rw [h₇]; decide +kernel
  · rw [h₈]; decide +kernel
  · rw [h₂]; decide +kernel
  · rw [h₃]; decide +kernel
  · rw [h₄]; decide +kernel
  · rw [h₅]; decide +kernel
  · rw [h₆]; decide +kernel

/-- A flit of entry 1 in the landing buffer of port 7 of die 0; its entry's area holds it, or does not. -/
def landed (len : Nat) : State :=
  { (planned ctx0).wr (planWordAddr 0 48) (BitVec.ofNat 32 len) with
    mesh := { ctx0.mesh with
      landing := [(7, [{ flit := { entry := 1, first := true, payload := zeros 240, origin := none }, seq := 0, waiting := false }])] } }

/-- Levels of a lane in NRZ: zero symbols and the symbol after them, then zero symbols. -/
def laneBits (es : List (Nat × Nat)) (z : Nat) : List Nat :=
  (es.flatMap fun e => List.replicate (10 * e.1) 0 ++ toLevels 0 (bitsOf 10 e.2)) ++ List.replicate (10 * z) 0

/-- The 1,088 symbols of a burst of five flits on 8 lanes in NRZ, dealt two at a time: the PLAN flit, four flits of zeros, and the
parity of the two codewords that carry the first. -/
def burstLanes : List (Fin 18 × List Nat) :=
  [(0, laneBits [(0, 0x20C), (63, 0x0BB), (0, 0x04D), (0, 0x2AC), (0, 0x11A)] 68),
    (1, laneBits [(64, 0x02F), (0, 0x33C), (0, 0x09F), (0, 0x261)] 68),
    (2, laneBits [(0, 0x004), (0, 0x00F), (62, 0x248), (0, 0x2E8), (0, 0x330), (0, 0x017)] 68),
    (3, laneBits [(64, 0x3B5), (0, 0x3C4), (0, 0x32E), (0, 0x3E6)] 68),
    (4, laneBits [(25, 0x00D), (38, 0x327), (0, 0x14C), (0, 0x299), (0, 0x09C)] 68),
    (5, laneBits [(24, 0x197), (0, 0x014), (38, 0x0BF), (0, 0x17D), (0, 0x3ED), (0, 0x267)] 68),
    (6, laneBits [(24, 0x340), (39, 0x2A2), (0, 0x0C2), (0, 0x039), (0, 0x1D1)] 68),
    (7, laneBits [(64, 0x101), (0, 0x0B7), (0, 0x2ED), (0, 0x1AF)] 68)]

/-- Lanes 0 to 7 of input 127 and of port 7 of die 0 are usable. -/
def bursting : State :=
  (planned ctx0 |>.wr (aRngUse 127) 0xFF |>.wr (aRngRxuse 127) 0xFF).wr (aRngUse 7) 0xFF |>.wr (aRngRxuse 7) 0xFF

theorem burst_shape : burstShape bursting 127 0 7 = (List.range 8, 0, 5) := by decide +kernel

/-- The first pair's data and parity, as sent. -/
def pairData : List Sym :=
  let held : List (Nat × Sym) := [(0, 0x20C), (4, 0x004), (5, 0x00F), (201, 0x00D), (202, 0x197), (203, 0x014), (204, 0x340)]
  (List.range 512).map fun i => ((held.find? fun e => e.1 = i).map (·.2)).getD 0
def pairParity : List Sym :=
  [0x0BB, 0x04D, 0x02F, 0x33C, 0x248, 0x2E8, 0x3B5, 0x3C4, 0x327, 0x14C, 0x0BF, 0x17D, 0x2A2, 0x0C2, 0x101, 0x0B7, 0x2AC, 0x11A,
    0x09F, 0x261, 0x330, 0x017, 0x32E, 0x3E6, 0x299, 0x09C, 0x3ED, 0x267, 0x039, 0x1D1, 0x2ED, 0x1AF]

theorem burst_symbols :
    gather ((List.range 8).map fun l => bitSyms (fromLevels 0 (((burstLanes.find? fun x => x.1.val = l).map (·.2)).getD []))) 1088 =
      pairData ++ pairParity ++ List.replicate 544 0 := by decide +kernel

theorem pair_first : (pairDecode 8 (pairData ++ pairParity)).data = pairData ∧ (pairDecode 8 (pairData ++ pairParity)).lost = 0 := by
  decide +kernel
theorem pair_second :
    (pairDecode 8 (List.replicate 544 0)).data = List.replicate 512 0 ∧ (pairDecode 8 (List.replicate 544 0)).lost = 0 := by
  decide +kernel

theorem burst_bytes : bitBytes (symBits (pairData ++ List.replicate 512 0)) = planFlit ++ zeros 1024 := by decide +kernel

theorem pair_runs : runsOf ((pairSizes (dataSyms 5)).map fun d => d + 4 * 8) (pairData ++ pairParity ++ List.replicate 544 0) =
    [pairData ++ pairParity, List.replicate 544 0] := by
  rw [show (pairSizes (dataSyms 5)).map (fun d => d + 4 * 8) = [544, 544] by decide +kernel, runsOf, runsOf, runsOf,
    List.take_left' (by decide +kernel), List.drop_left' (by decide +kernel), List.take_of_length_le (Nat.le_of_eq List.length_replicate)]

theorem any_false (l : List Nat) : (l.any fun _ => false) = false := by simp

theorem burst_decodes : (takeBurst bursting 127 0 7 burstLanes).2 =
    { bytes := planFlit, lost := false } :: List.replicate 4 { bytes := zeros 256, lost := false } := by
  have hs : codedSyms (fecCorrects false) 5 = 1088 := by decide +kernel
  have ht : fecCorrects false = 8 := rfl
  rw [takeBurst, burst_shape]
  dsimp only
  rw [hs, burst_symbols, ht]
  simp only [flitsDecode, pair_runs, List.map_cons, List.map_nil, List.flatMap_cons, List.flatMap_nil, List.append_nil, pair_first.1,
    pair_second.1, burst_bytes]
  have hb : ∀ j : Nat, ([pairDecode 8 (pairData ++ pairParity), pairDecode 8 (List.replicate 544 0)][j]?.map (·.lost)).getD 0 = 0 := by
    intro j
    match j with
    | 0 => exact pair_first.2
    | 1 => exact pair_second.2
    | j + 2 => rfl
  simp only [hb, ne_eq, not_true_eq_false, decide_false, Bool.and_false, any_false]
  decide +kernel

theorem typ_of_parse (b : List Byte) (g : Flit) (h : parseFlit b = some g) : g.typ = fieldAt b 0 1 % 16 := by
  rw [parseFlit] at h
  split at h
  · cases h
  · cases h; rfl

theorem witness_BurstsAndLandings :
    ((takeBurst bursting 127 0 7 burstLanes).2 =
        { bytes := planFlit, lost := false } :: List.replicate 4 { bytes := zeros 256, lost := false } ∧
      (∀ y ∈ List.replicate 4 ({ bytes := zeros 256, lost := false } : RxFlit), y.lost = true ∨
        ∀ g, parseFlit y.bytes = some g → g.typ ≠ tPlan) ∧
      (rxPairOf bursting 127 0 0 7).next = 0 ∧
      (rxPairOf bursting 127 0 0 7).held = [] ∧ splitOf (planEntry bursting (activeBank bursting) 1) 1 = 0 ∧
      hasPlace bursting 0 7 { entry := 1, first := true, payload := zeros 240, plen := 240, origin := none } = true) ∧
    (rxPairOf { ready with mesh := { ready.mesh with rxPairs := [{ src := 127, split := 0, die := 0, port := 7, lockFails := 2 }] } }
      127 0 0 7).lockFails = 2 ∧
    sramServes (ready.setFld (aTdState 11) 2 0 tdInit) 11 = false ∧
    ∀ len ∈ [239, 240], sramServes (landed len) 0 = true ∧ (landed len).now.main = [] ∧
      ((landed len).landingOf 7).find? (fun f => !f.waiting) =
        some { flit := { entry := 1, first := true, payload := zeros 240, origin := none }, seq := 0, waiting := false } ∧
      (planEntry (landed len) (activeBank (landed len)) 1).land = 0 ∧
      (planEntry (landed len) (activeBank (landed len)) 1).landLen = len :=
  ⟨⟨burst_decodes, fun y hy => by
      rw [List.eq_of_mem_replicate hy]
      exact Or.inr fun g h => by rw [typ_of_parse _ g h]; decide +kernel, by decide +kernel⟩,
    by decide +kernel, by decide +kernel, by decide +kernel⟩

/-- A pair that sent numbers 0 and 1 and has the IACK of neither. -/
def sentPair : TxPair :=
  { src := 127, split := 0, dst := 11, next := 2, bursts := [{ dst := 11, high := some 1, age := 8 }],
    store := (List.range 2).map fun i =>
      { seq := BitVec.ofNat 16 i, flit := { entry := 1, first := false, payload := zeros 240, origin := none }, age := 8, waitFor := [11] } }

theorem witness_AcknowledgedAndReplayed :
    ({ ready with mesh := { ready.mesh with txPairs := [sentPair] } } : State).mesh.txPairs.find? (fun t => sameTx t 127 0 11) =
        some sentPair ∧ (∃ f ∈ sentPair.store, iackCovers 0xFFFF 0 f.seq = false ∧ f.waitFor ≠ []) ∧
      (∃ f ∈ sentPair.store, iackCovers 0 0 f.seq = true) := by decide +kernel

/-- A request for lines of stack 31 from a requester; requests that the ledger cannot serve. -/
def lineReq (who : Nat) (cls5 : Bool) : LedReq :=
  { cls5 := cls5, requester := who, input := some 115, output := some 115, bond := none, stack := some (31, 1) }

theorem witness_SlotAndLedger :
    ({ ready with beat := 31 } : State).beat.toNat % 32 ≠ 0 ∧ ({ ready with beat := 32 } : State).beat.toNat % 32 = 0 ∧
      switchDue { ready with beat := 32 } = false ∧ ready.ecc = [] ∧ ledgerTakes ready (lineReq 29 true) = true ∧
      ledgerTakes ready (lineReq 30 true) = false ∧ ledgerTakes ready { lineReq 29 true with output := some 116 } = false ∧
      ledgerTakes ready (lineReq guestRequester false) = false ∧
      (let s := (ready.setFld aGfwState 2 0 gfwOpened).setFld aGfwShare 15 8 1
       ledgerTakes s (lineReq guestRequester false) = true ∧ ledgerTakes s (lineReq guestRequester true) = false) := by decide +kernel

/-! A plan of 256 rows without entries passes the check. -/

theorem get_default {α : Type} (d : Nat → α) (m : SMap α) (k : Nat) (h : ∀ e ∈ m, e.1 ≠ k) : SMap.get d m k = d k := by
  induction m with
  | nil => rfl
  | cons e m ih => rw [SMap.get, if_neg (h e (by simp))]; exact ih fun x hx => h x (by simp [hx])

/-- The register or array ends before bank B. -/
def beforeBank (r : RegRow) : Bool :=
  match r.dims with
  | [] => decide (r.base < 0x800000)
  | (st, n) :: _ => st ≠ 0 && decide (r.base + st * n ≤ 0x800000)

/-- Every register of block 0 ends before bank B or has reset value 0. -/
theorem bankRows : ∀ r ∈ regRows0, (r.resetVal = 0 ∧ r.name ≠ "TD_ID") ∨ beforeBank r = true := by decide +kernel

theorem bank_default (a : Nat) (h : 0x800000 ≤ a) (h' : a < 0x1000000) : regDefault a = 0 := by
  have hb : a / 0x1000000 = 0 := by omega
  rw [regDefault, regAt, hb]
  split
  · rfl
  · next r hr =>
    have hm : r ∈ regRows0 := List.mem_of_find?_eq_some hr
    have hh : r.has a = true := by have := List.find?_some hr; simpa using this
    rcases bankRows r hm with ⟨h₁, h₂⟩ | h₂
    · rw [if_neg h₂, h₁]
    · exfalso
      simp only [RegRow.has, Bool.and_eq_true, decide_eq_true_eq] at hh
      obtain ⟨hba, hd⟩ := hh
      rw [beforeBank] at h₂
      split at h₂
      · next e =>
        rw [e] at hd
        simp only [inDims, decide_eq_true_eq] at hd h₂
        omega
      · next st n ds e =>
        rw [e] at hd
        simp only [inDims, Bool.and_eq_true, decide_eq_true_eq] at hd h₂
        have := (Nat.div_lt_iff_lt_mul (Nat.pos_of_ne_zero h₂.1)).1 hd.1
        rw [Nat.mul_comm] at this
        omega

/-- Bank B holds a plan of 256 rows and nothing else; its check is in progress. -/
def emptyPlan : State :=
  (({ ready with mesh := { ready.mesh with checking := true } }).wr (planWordAddr 1 0) 0x504C414E).wr (planWordAddr 1 4) 1

theorem emptyPlan_rows (off n : Nat) (h : 8 ≤ off) (h' : off < 0x400000) : planField emptyPlan 1 off n = 0 := by
  have hn : ∀ e ∈ ready.regs, e.1 < 0x800000 ∨ 0x1000000 ≤ e.1 := by decide +kernel
  have ha : planWordAddr 1 off = 0x800000 + 4 * (off / 4) := rfl
  have e : emptyPlan.rd (planWordAddr 1 off) = 0 := by
    rw [ha, emptyPlan, State.rd_wr_ne _ _ (by show 0x800000 + 4 * (4 / 4) ≠ _; omega),
      State.rd_wr_ne _ _ (by show 0x800000 + 4 * (0 / 4) ≠ _; omega)]
    exact (get_default _ _ _ fun e he => by have := hn e he; omega).trans (bank_default _ (by omega) (by omega))
  rw [planField, e]
  simp

theorem empty_row (s : State) (b r : Nat) (h : ∀ off n, 0x20000 + 512 * r ≤ off → off < 0x20000 + 512 * (r + 1) → planField s b off n = 0) :
    checkRow s b r = none := by
  have ho : rowOwners s b r = [] := by
    rw [rowOwners, List.filterMap_eq_nil_iff]
    intro q hq
    have := List.mem_range.1 hq
    simp [rowOwner, h _ 2 (show 0x20000 + 512 * r ≤ 0x20000 + 512 * r + 2 * q by omega) (by omega)]
  have hw : rowWords s b r = [] := by
    rw [rowWords, List.filterMap_eq_nil_iff]
    intro g hg
    have := List.mem_range.1 hg
    simp [h _ 4 (show 0x20000 + 512 * r ≤ 0x20000 + 512 * r + 256 + 4 * g by omega) (by omega)]
  have hg : rowGrants s b r = [] := by rw [rowGrants, hw]; rfl
  have h₁ : checkOwners s b r = none := by
    rw [checkOwners, List.findSome?_eq_none_iff]
    intro q hq
    have := List.mem_range.1 hq
    simp [h _ 2 (show 0x20000 + 512 * r ≤ 0x20000 + 512 * r + 2 * q by omega) (by omega)]
  have h₄ : checkBudget s b r = none := by
    simp [checkBudget, hw, hg, ho, stackLines, bondLines]
    exact fun _ => rfl
  simp [checkRow, h₁, checkConflict, checkSplit, h₄, checkRoute, rowConns, ho]

theorem plan_passes (s : State) (b n : Nat) (h₁ : headerBad s b = false) (h₂ : planNent s b = 0) (h₃ : planLen s b = n)
    (h : ∀ off m, 0x20000 ≤ off → off < 0x20000 + 512 * n → planField s b off m = 0) : checkPlan s b = none := by
  have h₄ : checkEntries s b = none := by simp [checkEntries, h₂]
  simp only [checkPlan, h₁, h₃, h₄, Bool.false_eq_true, if_false]
  rw [List.findSome?_eq_none_iff]
  intro r hr
  have := List.mem_range.1 hr
  exact empty_row _ _ _ fun off m h' h'' => h off m (by omega) (by omega)

theorem emptyPlan_passes : checkPlan emptyPlan 1 = none :=
  plan_passes emptyPlan 1 256 (by decide +kernel) (by decide +kernel) (by decide +kernel) fun off m h h' =>
    emptyPlan_rows off m (by omega) (by omega)

/-- A switch is due; and a failed element's re-routing ends. -/
def dueSwitch : State := { ready.setBit aHubPlanstat 29 true with beat := 8192 }
def rerouting : State := { ready with mesh := { ready.mesh with rerouting := [0] } }

theorem witness_PlanAndElements :
    (checkPlan emptyPlan (standbyBank emptyPlan) = none ∧ emptyPlan.mesh.checking = true) ∧
    (let s : State := { ready with mesh := { ready.mesh with checking := true } }
     s.mesh.checking = true ∧ checkPlan s (standbyBank s) = some ⟨1, 0, 0⟩ ∧ planField s (standbyBank s) 0 4 ≠ 0x504C414E) ∧
    (planPending dueSwitch = true ∧ dueSwitch.beat.toNat % 32 = 0 ∧ dueSwitch.beat.toNat / 32 % 256 = 0 ∧
      dueSwitch.mesh.switchSlot.toNat + 3 ≤ dueSwitch.beat.toNat / 32) ∧
    (ready.bit (aHubMeshfail (831 / 32)) (831 % 32) = false ∧
      (ready.setBit (aHubMeshfail (831 / 32)) (831 % 32) true).bit (aHubMeshfail (831 / 32)) (831 % 32) = true) ∧
    rerouting.mesh.rerouting ≠ [] ∧ rerouting.beat.toNat % 32 = 0 ∧ rerouting.beat.toNat / 32 % 256 = 0 ∧
      ∀ r, ¬ r < planLen rerouting (activeBank rerouting) := by
  refine ⟨⟨?_, by decide +kernel⟩, by decide +kernel, by decide +kernel, by decide +kernel, by decide +kernel, by decide +kernel,
    by decide +kernel, fun r => ?_⟩
  · rw [show standbyBank emptyPlan = 1 by decide +kernel]; exact emptyPlan_passes
  · rw [show planLen rerouting (activeBank rerouting) = 0 by decide +kernel]; exact Nat.not_lt_zero r

/-- A guest is fitted, its firewall OPEN, with the last window over the last page of stack 31 and object 4095 of context 0
allowed. -/
def guestOpen : State :=
  ((((((syncing true).setBit aHubInv 16 true).setFld aGfwState 2 0 gfwOpened).setFld aGfwShare 15 8 1
    |>.wr (aGfwWin0 7) (BitVec.ofNat 32 (2 ^ 31 + 2 ^ 30 + 2 ^ 29 + 0xFC7FF))).wr (aGfwWin1 7) 0xFC7FF
    |>.setBit (aGfwSyncallow 127) 31 true) |> fun s => withStack s 31)

def guestAttesting : State := guestOpen.setFld aGfwState 2 0 gfwAttesting

theorem witness_Guest :
    (guestRuns guestOpen = true ∧ guestFull guestOpen = false ∧ 0 < guestOpen.fld aGfwShare 15 8 ∧ gfwState guestOpen = gfwOpened ∧
      7 ∈ guestWindows guestOpen 0x1F8FFFFFF80 128 ∧ guestOpen.bit (aGfwWin0 7) 30 = true ∧ guestOpen.bit (aGfwWin0 7) 29 = true ∧
      (memRead guestOpen masterGuest 0x1F8FFFFFF80 128).2 = .ok ∧ memWritable guestOpen masterGuest 0x1F8FFFFFF80 128 = .ok ∧
      guestWindows guestOpen 0x1F8FFDFFF80 128 = []) ∧
    (guestOpen.bit (aGfwSyncallow (4095 / 32)) (4095 % 32) = true ∧ syncEn guestOpen 4095 = true ∧ syncAllowed guestOpen 4095 0 = true ∧
      guestOpen.net = [] ∧ inTurn guestOpen (.signal 4095 1 0 0 0) = true ∧ guestOpen.bit (aGfwSyncallow 0) 0 = false ∧ syncEn guestOpen 0 = false) ∧
    gfwState guestAttesting = gfwAttesting ∧ gfwState guestOpen ≠ gfwAttesting := by decide +kernel

/-! ### Witnesses: rings, feed-forward, calibration -/

/-- Port 0 UP, its transmit and receive ring of lane 17 locked and in use or not, every lane of the port usable. -/
def laneState (locked used : Bool) : State :=
  let s := (((ready.setFld (aRngState 0) 2 0 rngUp).setFld (aRngLane 0 17) 31 26 0).setBit (aRngLock 0) 17 locked).setBit (aRngRxlock 0) 17 locked
  (s.setBit (aRngUse 0) 17 used).setBit (aRngRxuse 0) 17 used

/-- `s` with ring 17, the transmit ring of lane 17 of port 0. -/
def withRing (s : State) (r : Ring) : State := { s with opt := { s.opt with rings := [(17, r)] } }

/-- Lane 17 of port 0 is to rejoin at a guard with s mod 256 = 0. -/
def rejoining (beat : BitVec 64) : State :=
  { laneState true false with beat := beat, opt := { ready.opt with ports := [(0, { rejoin := 0x20000 })] } }

theorem witness_RingsAndSets :
    (∀ tx, ∀ b, belongs (laneState b (!b)) 0 tx 17 = b ∧ willUse (laneState b (!b)) 0 tx 17 ≠ b ∧ isXPort 0 = false ∧
      (laneState b (!b)).beat.toNat % 32 < 4 ∧ rngState (laneState b (!b)) 0 = rngUp) ∧
    (∀ tx, (laneState true true).bit (lockAddr 0 tx) 17 = true ∧ ((laneState true true).port 0).turn = none ∧
      (laneState false true).bit (lockAddr 0 tx) 17 = false ∧ laneRole (laneState true true) 0 tx 17 = roleUsable ∧
      ((laneState true true).port 0).rejoin.getLsbD 17 = false) ∧
    4 ≤ ({ ready with beat := 36 } : State).beat.toNat % 32 ∧
    ((rejoining 32).port 0).rejoin.getLsbD 17 = true ∧ (rejoining 32).beat.toNat / 32 % 256 ≠ 0 ∧
    (∀ tx, willUse (rejoining 0) 0 tx 17 ≠ true ∧ belongs (rejoining 0) 0 tx 17 = true) ∧ (rejoining 0).beat.toNat / 32 % 256 = 0 ∧
    2 ^ 20 ≤ (laneCounts ready 131 17 1 (2 ^ 20)).2 ∧
    (mayLock (laneState true true) 0 true = true ∧ mayLock (laneState true true) 0 false = false ∧
      mayLock ready 0 false = true ∧ rngState ready 0 ≠ rngSearch ∧
      searchFinds (ready.ring (ringNo 0 true 17)).lock 4000 = false ∧ searchFinds (ready.ring (ringNo 0 true 17)).lock 3675 = true ∧
      rngState (ready.setFld (aRngState 0) 2 0 rngSearch) 0 = rngSearch ∧
      laneRole (ready.setFld (aRngLane 0 17) 31 26 0) 0 true 17 = roleUsable) ∧
    (∀ c ∈ [32, 4063], ((withRing ready { lock := c }).ring (ringNo 0 true 17)).lock = c) ∧
    ∀ c ∈ [31, 4064], ((withRing ready { lock := c }).ring (ringNo 0 true 17)).lock = c ∧ (c < 32 ∨ 4063 < c) ∧
      searchFinds (hopCode c) (hopCode c + 73) = true ∧ ready.opt.atGuard = [] := by decide +kernel

/-- A ring that has observed a shift of 1 after a change from class `p` to class `c`, knowing the classes of `ks`. -/
def learner (p c : Fin 8) (ks : List Bool) : State :=
  withRing ready { cls := c, prev := p, obs := some 1, known := ks ++ List.replicate (8 - ks.length) false }

theorem learner_has (p c : Fin 8) (ks : List Bool) :
    ((learner p c ks).ring (ringNo 0 true 17)).obs = some 1 ∧ ((learner p c ks).ring (ringNo 0 true 17)).cls = c ∧
      ((learner p c ks).ring (ringNo 0 true 17)).prev = p := ⟨rfl, rfl, rfl⟩

theorem witness_FeedForward :
    (95 : PortId).val < 96 ∧ 96 ≤ (96 : PortId).val ∧ (ready.ring (ringNo 0 true 17)).obs = none ∧
      (∀ x ∈ [((0 : Fin 8), (1 : Fin 8), [true, true]), (1, 0, [true, true]), (0, 1, [true, false]), (1, 0, [true, false])],
        let r := (learner x.1 x.2.1 x.2.2).ring (ringNo 0 true 17)
        r.obs = some 1 ∧ r.coeff.length = 8 ∧ r.known.length = 8 ∧ r.cls = x.2.1 ∧ r.prev = x.1) ∧
      (let r := (learner 0 1 [true, true]).ring (ringNo 0 true 17)
       knows r r.cls = true ∧ knows r r.prev = true ∧ r.cls ≠ 0) ∧
      (let r := (learner 1 0 [true, true]).ring (ringNo 0 true 17)
       knows r r.cls = true ∧ knows r r.prev = true ∧ r.cls = 0) ∧
      (let r := (learner 0 1 [true, false]).ring (ringNo 0 true 17)
       knows r r.cls = false ∧ knows r r.prev = true) ∧
      (let r := (learner 1 0 [true, false]).ring (ringNo 0 true 17)
       knows r r.cls = true ∧ knows r r.prev = false) := by decide +kernel

/-- A turn of lane 17 is due, port 0 UP with 17 or 16 usable lanes. -/
def turnDue (set : Word) : State :=
  ((((ready.setBit aHubCalctl 31 true).setFld aHubCalctl 13 0 0).setFld (aRngState 0) 2 0 rngUp).wr (aRngUse 0) set).wr (aRngRxuse 0) set

def meas (code : Int) : CalMeas := { lane := 0, tx := true, rx := true, txCode := 100, rxCode := 100, txPm := code, rxPm := code, levels := [], pdc := 0, phases := [], taps := [], eyes := [] }
/-- Port 0 has a turn; its lane is suspect. -/
def turning (t : CalTurn) : State := { ready.setBit (aRngSuspect 0) 17 true with opt := { ready.opt with ports := [(0, { turn := some t })] } }

theorem witness_CalibrationTurns :
    calDue ready ready.opt.ended = false ∧
    (∀ n ∈ [0x1FFFF, 0xFFFF], let s := turnDue (BitVec.ofNat 32 n)
      calDue s s.opt.ended = true ∧ s.beat.toNat % 32 < 4 ∧ s.beat.toNat / 32 % 256 = 0 ∧
        (∀ p ∈ internalPorts, (s.port p).turn = none ∧ handingOver s p = false) ∧ rngState s 0 = rngUp ∧
        (s.port 0).excluded.getLsbD 0 = false ∧ laneRole s 0 true 0 ≠ roleDark ∧ s.opt.atGuard = [] ∧ (if n = 0xFFFF then usableLanes s 0 ≤ 16 else 16 < usableLanes s 0)) ∧
    (ready.port 0).turn = none ∧ (ready.port 0).accept = [] ∧
    (∀ t ∈ [{ lane := 17, void := true }, { lane := 17 }, { lane := 17, prev := some (meas 0) },
        { lane := 17, prev := some (meas 0), again := 2 }, { lane := 17, prev := some (meas 0), again := 3 }],
      ((turning t).port 0).turn = some t ∧ t.tx = (meas 0).tx ∧ t.rx = (meas 0).rx ∧ (turning t).bit (aRngSuspect 0) t.lane = true ∧
        ready.bit (aRngSuspect 0) t.lane = false) ∧
    measAgree (meas 0) (meas 8) = true ∧ measAgree (meas 0) (meas 9) = false ∧
    (∀ v ∈ [rngSearch, rngMargin], inTest (ready.setFld (aRngState 131) 2 0 v) 131 = true) ∧ inTest (ready.setFld (aRngState 131) 2 0 rngUp) 131 = false ∧
    selectMode ready 131 0x7F 0 0 = none ∧ selectMode ready 131 0xFF 0 0 = some (0, 0xFF) := by decide +kernel

/-- The table's copy A holds `d`. -/
def tabled (d : LgtData) : State := { ready with eeprom := { ready.eeprom with lgtA := some { gen := 1, data := d } } }

theorem lgt_unchanged (s : State) (h₁ : s.opt.rings = []) (h₂ : s.opt.lanes = []) (h₃ : s.opt.phases = []) :
    lgtChanged (lgtNow s) (lgtNow s) = false := by
  simp [lgtChanged, lgtNow, h₁, h₂, h₃]

theorem witness_LastGoodTable :
    lgtBusy (ready.setBit aHubLgt 30 true) = true ∧ lgtBusy (tabled (lgtNow ready)) = false ∧
      lgtCopy (tabled (lgtNow ready)) = some { gen := 1, data := lgtNow ready } ∧
      lgtChanged (lgtNow ready) (lgtNow (tabled (lgtNow ready))) = false ∧ lgtCopy (tabled {}) = some { gen := 1, data := {} } ∧
      lgtChanged {} (lgtNow (tabled {})) = true ∧ lgtCopy ready = none ∧ ready.opt.writing = none ∧
      ({ ready with opt := { ready.opt with writing := some (true, {}) } } : State).opt.writing = some (true, {}) :=
  ⟨by decide +kernel, by decide +kernel, rfl, lgt_unchanged ready rfl rfl rfl, rfl, by decide +kernel, rfl, rfl, rfl⟩

/-! ### Witnesses: the light supply and eye safety -/

/-- Line 17 of bank 0 in a state with a drive, its laser at power `pm` against `ref`; ports 0 to 3 use the lane and have sent
2^20 symbols on it; DRV_MAX 100. -/
def lineAt (st drv pm ref : Nat) : State :=
  let s := ((ready.setFld (aLbLine 0 17) 31 29 st).setFld (aLbLine 0 17) 28 27 0).setFld (aLbLine 0 17) 8 0 drv
  let s := ((s.wr (aLbMon 0 17) (BitVec.ofNat 32 (ref * 65536 + pm))).setBit (aLbCtl 0) 31 true).setFld (aLbCtl 0) 8 0 100
  let s := (List.range 4).foldl (fun s p => (s.setBit (aRngUse p) 17 true).setFld (aRngState p) 11 10 0) s
  { s with opt := { s.opt with fec := (List.range 4).map fun p => (sourceBase p + 17, { total := 2 ^ 20, marks := [(0, 0)] }) } }

/-- What ports 0 to 3 report, each an eye opening of `v`. -/
def obsOf (v : Nat) : List SmfObs := (List.range 4).map fun p => { port := Fin.ofNat 132 p, eye := v, corr := 0, syms := 2 ^ 20 }

def figureSeen (s : State) (v : Nat) : Option Nat :=
  lineFigure (((obsOf v).filter fun o => bankOf o.port = 0).filterMap (smf s 17))

/-- Bank 0 with `k`. -/
def banked (s : State) (k : Bank) : State := { s with light := { s.light with banks := [(0, k)] } }

/-- Laser 17 reported 3 dB more within the last millisecond. -/
def fallen : State := banked (lineAt lineActive 50 0 0) { recent := [(17, [(0, 30)])] }

def tuning (spare : Nat) : State :=
  (banked ready { ho := some { line := 17, spare := 0 } }).setFld (aLbSpare 0 1) 31 30 spare

theorem witness_LinesAndDrives :
    ((∃ x ∈ (SMap.get (fun _ => []) (fallen.bank 0).recent 17).filter fun x => fallen.ns ≤ x.1.toNat + 1000000, 30 ≤ x.2 - (0 : Int)) ∧
      (List.finRange 18).find? (fun (w : LaneId) => sourceLaser (lineSource fallen 0 w) w = some 17) = some 17 ∧
      lineState fallen 0 17 ≠ lineHandover ∧ lineState fallen 0 17 ≠ lineLost ∧
      (fallen.bank 0).ho = none ∧ (SMap.get (fun _ => []) ((lineAt 0 50 0 0).bank 0).recent 17) = []) ∧
    lineFigure [1, 2, 3] = none ∧ 4 ≤ [4, 1, 3, 2].length ∧
    ((∀ st ∈ [lineActive, lineRaising], lineState (lineAt st 50 0 5) 0 17 = st ∧ fadeEn (lineAt st 50 0 5) 0 = true ∧
        linePower (lineAt st 50 0 5) 0 17 = some (0, 5)) ∧ lineFigure (([] : List SmfObs).filterMap (smf ready 17)) = none ∧
      figureSeen (lineAt 0 50 0 5) 5 = some 53 ∧ figureSeen (lineAt 0 100 0 5) 8 = some 85 ∧
      lineDrive (lineAt 0 100 0 5) 0 17 = drvMax (lineAt 0 100 0 5) 0 ∧ figureSeen (lineAt 0 50 0 5) 6 = some 64 ∧
      lineDrive (lineAt 0 50 0 5) 0 17 ≠ drvMax (lineAt 0 50 0 5) 0 ∧ (0 : Int) ≤ 5 - 5 ∧ figureSeen (lineAt 1 50 0 5) 11 = some 117 ∧
      fadeEn ((lineAt 0 50 0 5).setBit (aLbCtl 0) 31 false) 0 = false ∧
      linePower (lineAt 0 50 0 4) 0 17 = some (0, 4) ∧ (4 : Int) - 5 < 0) ∧
    (bankOff (lineAt 1 99 0 1) 0 = false ∧ bankOff { ready with light := { ready.light with lb6Off := true } } 6 = true ∧
      lineState (lineAt 1 99 0 1) 0 17 = lineRaising ∧ linePower (lineAt 1 99 0 1) 0 17 = some (0, 1) ∧
      (lineAt 1 99 0 1).fld (aLbLine 0 17) 23 16 < 112 ∧ lineDrive (lineAt 1 99 0 1) 0 17 < drvMax (lineAt 1 99 0 1) 0) ∧
    (ready.bank 0).ho = none ∧
    (∀ v ∈ [spareIdle, spareTuning], ((tuning v).bank 0).ho = some { line := 17, spare := 0 } ∧ spareState (tuning v) 0 1 = v) ∧
    ready.light.dirty = false ∧ ({ ready with light := { ready.light with dirty := true } } : State).light.dirty = true := by
  decide +kernel

/-- Line 17 waits for its handover, with the lower spare idle or neither. -/
def waitingLine (v : Nat) : State :=
  ((((banked ready { waiting := [17] }).setFld (aLbSpare 0 0) 31 30 v).setFld (aLbSpare 0 1) 31 30 v).setFld (aRngState 15) 2 0 rngUp).setFld
    (aRngLane 15 17) 31 29 roleUsable

def handing (stage : Nat) : State :=
  (banked ready { ho := some { line := 17, spare := 1, stage := stage, ports := [15], passed := [15] } }).setFld (aRngState 15) 2 0 rngUp

theorem witness_Handovers :
    bankOff (waitingLine 0) 0 = false ∧ ((tuning 0).bank 0).ho.isSome = true ∧ (ready.bank 0).waiting.head? ≠ some 17 ∧
    (∀ v ∈ [0, 1], ((waitingLine v).bank 0).ho = none ∧ ((waitingLine v).bank 0).waiting.head? = some 17 ∧
      idleSpare (waitingLine v) 0 = if v = 0 then some 0 else none) ∧
    ((15 : PortId) ∈ fedPorts 0 ∧ takesPart (waitingLine 0) 15 = true ∧
      (15 : PortId) ∉ SMap.get (fun _ => []) ((waitingLine 0).bank 0).early 17 ∧ laneRole (waitingLine 0) 15 true 17 = roleUsable ∧
      ((waitingLine 0).port 15).turn = none ∧ (waitingLine 0).opt.atGuard = []) ∧
    (∀ n ∈ [0, 1, 2, 3, 4], ((handing n).bank 0).ho = some { line := 17, spare := 1, stage := n, ports := [15], passed := [15] } ∧
      takesPart (handing n) 15 = true ∧ farLight (handing n) 15 17 = true ∧ farLight (handing n) 96 17 = false ∧ sourceLaser (lineSource (handing n) 0 17) 17 = some 17 ∧
      ((handing n).bank 0).ho.map (·.stage) ≠ some (n + 1)) := by decide +kernel

/-- Port 15 in an eye-safety state, its ferrule closed, its peer populated. -/
def eyeAt (v : Nat) : State := (ready.setFld (aEyeState 15) 2 0 v).setBit (aEyeState 15) 3 true

theorem witness_EyeSafety :
    (∀ v ∈ [eyeDark, eyeArmed, eyeLit, eyeLocked], eyeState (eyeAt v) 15 = v ∧ mayLight (eyeAt v) 15 = true) ∧
      eyeLit ≠ eyeArmed ∧ mayLight (ready.setBit (aEyeState 15) 3 false) 15 = false ∧ ready.light.darkening.getLsbD 15 = false ∧
      ({ ready with light := { ready.light with darkening := 0x8000 } } : State).light.darkening.getLsbD 15 = true ∧
      (15 : XPort).val / 8 = (1 : Fin 2).val := by decide +kernel

/-! ### Witnesses: external links -/

theorem witness_FlitsAndMessagesReadBack :
    (let f : Flit := { typ := 15, vc := 3, cvc := true, first := true, seq := 0xFFFF, ack := 0, entry := 0xFFF, plen := 255,
                       payload := zeros 240, credit := 0xFFFFFFFF }
     f.typ < 16 ∧ f.vc < 4 ∧ f.plen < 256 ∧ f.payload.length = 240) ∧
    (∀ status ∈ [0, 1], let m : XMsg := { kind := 0x01, m := 7, tag := 0, len := 0xFFFF, status := BitVec.ofNat 8 status }
      m.len < 2 ^ 16 ∧ m.data.length = (if m.kind = 0x01 ∨ (m.kind = 0x81 ∧ m.status ≠ 0) then 0 else m.len)) ∧
    (let m : XMsg := { kind := 0x81, m := 7, tag := 0, len := 0xFFFF, status := 1 }
     m.data.length = (if m.kind = 0x01 ∨ (m.kind = 0x81 ∧ m.status ≠ 0) then 0 else m.len)) ∧
    ∀ n, n < 2 ^ 16 → let m : XMsg := { kind := 0x81, m := 7, tag := 0, len := n, data := zeros n }
      m.len < 2 ^ 16 ∧ m.data.length = (if m.kind = 0x01 ∨ (m.kind = 0x81 ∧ m.status ≠ 0) then 0 else m.len) := by
  refine ⟨by decide +kernel, by decide +kernel, by decide +kernel, fun n hn => ⟨hn, ?_⟩⟩
  rw [if_neg (by simp)]
  exact List.length_replicate

/-- X15 in a state, with link state `k`. -/
def linkAt (v : Nat) (k : XLink) : State := (ready.setFld (aLnkState 15) 2 0 v).setLink 15 k

theorem link_at (v : Nat) (k : XLink) : (linkAt v k).link 15 = k := State.link_setLink_same _ _ _

theorem link_codes : ∀ v ∈ [lnkDown, lnkTrain, lnkUp, lnkRetrain], lnkState (linkAt v {}) 15 = v := by decide +kernel

/-- A flit sent and not acknowledged, after `n` replays; a PLAN flit that waits. -/
def held (n : Nat) (due : Bool) : XTx :=
  { seq := 0, typ := 2, vc := 0, first := true, entry := 0, plen := 240, payload := zeros 240, replays := n, due := due }
def waitingFlit : PlanFlit := { entry := 1, first := true, payload := zeros 240, origin := none }

theorem witness_LinkFlits :
    (linkTalks ready 15 = false ∧ linkTalks (linkAt lnkUp {}) 15 = true ∧ isPfl 15 = false ∧ isPfl 16 = true ∧
      ((takeIn (linkAt lnkUp {}) 15 []).phy 15).ready = [] ∧ parseFlit [] = none ∧ linkUp (linkAt lnkUp {}) 15 = true ∧
      ∀ b, ((takeIn (linkAt lnkUp { phy := { ready := [{ bytes := [], lost := b }] } }) 15 []).phy 15).ready = [{ bytes := [], lost := b }]) ∧
    ((takeIn (linkAt lnkUp { phy := { ready := [{ bytes := planFlit, lost := false }] } }) 15 []).phy 15).ready =
      { bytes := planFlit, lost := false } :: [] ∧
    (∃ f, parseFlit planFlit = some f ∧ reservedFlit 15 f = false ∧ f.ack = ((linkAt lnkUp { acked := 0 }).link 15).acked ∧ tMsg ≤ f.typ ∧
      f.seq = ((linkAt lnkUp { acked := 0 }).link 15).exp ∧ ((linkAt lnkUp { acked := 0 }).link 15).held = [] ∧
      ∀ e ∈ [1, 512], (((linkAt lnkUp { acked := 0, exp := BitVec.ofNat 16 e }).link 15).exp - f.seq).toNat = e) ∧
    (linkUp ready 15 = false ∧ (ready.link 15).lctl = []) ∧
    (((linkAt lnkUp { buf := [held 6 true] }).link 15).buf.find? (fun f => f.due) = some (held 6 true) ∧
      (let s := linkAt lnkUp { planq := [waitingFlit], chans := [(1, { credit := 1 })], buf := List.replicate 511 (held 0 false) }
       (∀ f ∈ (s.link 15).buf, f.due = false) ∧ msgReady s 15 0 = false ∧ msgReady s 15 1 = false ∧ (s.link 15).buf.length < 512 ∧
        (s.link 15).planq = waitingFlit :: [] ∧ hasCredit ((s.link 15).chan 1) = true) ∧
      ((linkAt lnkUp {}).port 111).values = [] ∧ ((linkAt lnkUp {}).link 15).phy.block.length < 1024 ∧ ((linkAt lnkUp {}).link 15).culprit = none ∧
      msgReady (linkAt lnkUp {}) 15 0 = false ∧ msgReady (linkAt lnkUp {}) 15 1 = false) ∧
    (∀ n ∈ [6, 7], ((linkAt lnkUp { buf := [held n false] }).link 15).buf.find? (fun f => f.seq = 0) = some (held n false)) ∧
    (let s := linkAt lnkUp { buf := [held 6 false], timer := some 0 }
     (s.link 15).timer = some 0 ∧ (s.link 15).buf = held 6 false :: [] ∧ linkUp s 15 = true ∧
      ∀ d ∈ [0, 1], let t := { s with clock := 1000 * (timerNs s 15 - d) }
        timerNs t 15 = timerNs s 15 ∧ t.ns = timerNs s 15 - d ∧ 0 < timerNs s 15) := by
  refine ⟨by decide +kernel, by decide +kernel, ?_, by decide +kernel, by decide +kernel, by decide +kernel, by decide +kernel⟩
  obtain ⟨f, h, h₁, h₂, h₃, -, h₄, -⟩ := flit_parses
  refine ⟨f, h, ?_, ?_, ?_, ?_, ?_, ?_⟩
  · simp [reservedFlit, h₁, h₂, isPfl, pfl, tPlan, tMsg]
  · rw [h₃, link_at]
  · rw [h₁]; decide
  · rw [h₄, link_at]
  · rw [link_at]
  · rw [h₄]
    decide +kernel

/-- A change of the map announced, or accepted. -/
def change (accepted : Bool) : MapChange := { map := 0xFFFF, gen := true, s := 0, accepted := accepted }

/-- X15 UP with a transmit map of lanes 0 to 15, and a receive map of the same lanes. -/
def mappedLink (k : XLink) : State := ((linkAt lnkUp k).setFld (aLnkWidth 15) 18 0 0xFFFF).setFld (aLnkRxmap 15) 18 0 0xFFFF

/-- Generation 1 on the first `n` of 16 lanes, 0 on the others. -/
def shownOn (n : Nat) : List (Fin 18 × BitVec 20) := (List.range 16).map fun l => (Fin.ofNat 18 l, comma (decide (l < n)))

theorem witness_LaneMaps :
    (commasAlign (List.replicate 8 (comma false)) 8000 = true ∧ commasAlign (List.replicate 8 (comma false)) 8001 = false ∧
      commasAlign (List.replicate 7 (comma false) ++ [comma false ^^^ 7]) 0 = false ∧
      commasAlign (List.replicate 7 (comma true) ++ [comma true ^^^ 3]) 0 = true ∧
      commasMissed (List.replicate 4 (comma false ^^^ 7)) = true ∧ commasMissed (comma true :: List.replicate 3 0) = false ∧
      ((mappedLink { aligned := 0x20000 }).link 15).aligned.getLsbD 17 = true ∧ ((mappedLink {}).link 15).aligned.getLsbD 17 = false) ∧
    lnkState (mappedLink {}) 15 = lnkUp ∧ (8 ≤ bits18 0xFF ∧ (0xFF : BitVec 18) &&& ~~~((mappedLink { aligned := 0xFF }).link 15).aligned = 0) ∧
      bits18 0x7F < 8 ∧ rxGen (mappedLink {}) 15 = false ∧
      (∀ b, ((mappedLink { change := some (change b) }).link 15).change = some (change b) ∧
        ((mappedLink { change := some (change b) }).link 15).changes = [] ∧ ((mappedLink { change := some (change b) }).port 111).values = []) ∧
      ((mappedLink {}).link 15).change = none ∧ ((mappedLink {}).link 15).changes = [] ∧
      shownGen (rxMap (mappedLink {}) 15) (shownOn 8) (rxGen (mappedLink {}) 15) = rxGen (mappedLink {}) 15 ∧
      shownGen (rxMap (mappedLink {}) 15) (shownOn 9) (rxGen (mappedLink {}) 15) ≠ rxGen (mappedLink {}) 15 ∧
      ((mappedLink {}).link 15).rxChange = none ∧
      (let s := mappedLink { rxChange := some (change true) }
       (s.link 15).rxChange = some (change true) ∧ (change true).accepted = true ∧
        (change true).gen = shownGen (rxMap s 15) (shownOn 9) (rxGen s 15)) := by decide +kernel

/-- The grace period of X15 has just run out. -/
def graceEnd : State := { (linkAt lnkDown {}).setBit (aLnkState 15) 8 true with clock := 10000000000 }

theorem witness_LinkStates :
    (RetrainCause.eighthReplay ≠ .message ∧ lnkState (linkAt lnkDown {}) 15 ≠ lnkUp ∧ lnkState (linkAt lnkUp {}) 15 = lnkUp) ∧
    (lnkState (linkAt lnkRetrain {}) 15 = lnkRetrain ∧ mapAligned (linkAt lnkRetrain { aligned := 0x3FFFF }) 15 = true ∧
      ((linkAt lnkRetrain {}).link 15).change = none ∧ ((linkAt lnkRetrain {}).link 15).rxChange = none ∧
      ((linkAt lnkRetrain {}).link 15).changes = []) ∧
    (∀ n ∈ [1, 2], let s := (linkAt lnkRetrain {}).setFld (aLnkState 15) 5 4 n
      lnkState s 15 = lnkRetrain ∧ s.fld (aLnkState 15) 5 4 = n) ∧
    (DownCause.retrains ≠ .received ∧ lnkState (linkAt lnkDown {}) 15 ≤ lnkDown ∧ lnkDown < lnkState (linkAt lnkUp {}) 15 ∧
      lnkAlive (linkAt lnkUp {}) 15 = true) ∧
    (graceOver graceEnd 15 = true ∧ graceOver { graceEnd with clock := 9999999000 } 15 = false ∧ graceEnd.remotes = [] ∧
      heldOrigins graceEnd 15 = []) ∧
    (let s := linkAt lnkUp {}
     (s.port 111).turn = none ∧ (s.port 111).values = [] ∧ (s.link 15).change = none ∧ (s.link 15).changes = [] ∧ (s.link 15).rxAsk = []) := by decide +kernel

def advert (m : ModId) : Advert :=
  { have_ := false, fecMin := false, modeMax := 0, modNum := m, txSet := 0xFF, rxNrz := 0xFF, rxPam4 := 0, session := 1, held := 0,
    reqPool := 1, rspPool := 1 }
def confirmOf (txMap rxMap : BitVec 18) : Confirm := { mode := 0, strong := false, txMap := txMap, rxMap := rxMap, resume := false }
def negotiating : State := linkAt lnkTrain { adv := some (advert 0), conf := some (confirmOf 0xFF 0x1FF) }

theorem witness_LinkNegotiation :
    lnkState (linkAt lnkDown {}) 15 ≠ lnkTrain ∧ lnkState (linkAt lnkTrain {}) 15 = lnkTrain ∧
      (let s := ready.setFld (aLnkState 13) 2 0 lnkTrain
       lnkState s 13 = lnkTrain ∧ expectedPeer s 13 = some 7 ∧ 7 ≠ (advert 6).modNum.val) ∧
      expectedPeer (linkAt lnkTrain {}) 15 = none ∧ ((linkAt lnkTrain {}).link 15).holds = false ∧ (advert 0).have_ = false ∧
      lnkState negotiating 15 = lnkTrain ∧ (negotiating.link 15).adv = some (advert 0) ∧
      (negotiating.link 15).conf = some (confirmOf 0xFF 0x1FF) ∧ confirmsAgree (confirmOf 0xFF 0x1FF) (confirmOf 0xFF 0x1FF) = false ∧
      confirmsAgree (confirmOf 0xFF 0x1FF) (confirmOf 0x1FF 0xFF) = true ∧ (confirmOf 0xFF 0x1FF).resume = false ∧
      graceOver negotiating 15 = false ∧ ((linkAt lnkTrain {}).link 15).conf = none := by decide +kernel

/-! ### Witnesses: between modules -/

/-- X0 UP, its last exchanges measured, at an offset; the module in ADJUST, as the host asked. -/
def adjusting (o : Nat) : State :=
  ((({ ready with boot := { ready.boot with realign := true } }.setFld (aLnkState 0) 2 0 lnkUp).setFld aMmAlign 2 0 1).setFld (aMmLink 0) 15 0 o).setLink 0 { meas := [(0, 0)] }

/-- A probe of X15 sent at beat 0; its echo at beat 16. -/
def probed : State := { linkAt lnkUp { probes := [{ num := 1, t1 := 0 }] } with beat := 16 }

theorem witness_BeatsBetweenModules :
    (lnkState (linkAt lnkDown {}) 15 ≠ lnkUp ∧ lnkState probed 15 = lnkUp) ∧
    ((probed.link 15).probes.find? (fun p => p.num = 1 ∧ p.t1 = 0) = some { num := 1, t1 := 0 } ∧ (probed.link 15).meas = [] ∧
      2 * (128 : Int) = ((stamp probed 0 : Int) - (0 : BitVec 64).toNat) - (((100 : BitVec 64).toNat : Int) - (100 : BitVec 64).toNat) ∧
      2 * (-28 : Int) = (((100 : BitVec 64).toNat : Int) - (0 : BitVec 64).toNat) + (((100 : BitVec 64).toNat : Int) - stamp probed 0) ∧
      (probed.link 15).probes.find? (fun p => p.num = 2 ∧ p.t1 = 0) = none) ∧
    alignState ready ≠ 1 ∧
    (∀ o ∈ [8, 9], alignState (adjusting o) = 1 ∧ peerOffsets (adjusting o) = some [(o : Int)] ∧ mayStep (adjusting o) = true) ∧
    (let s := setCtxState (adjusting 9) 63 ctxIdle
     alignState s = 1 ∧ peerOffsets s = some [(9 : Int)] ∧ mayStep s = false) ∧
    (let s := { ready.setBit aMmSync 31 true with beat := BitVec.ofNat 64 (2 ^ 20) }
     s.bit aMmSync 31 = true ∧ s.beat.toNat % 2 ^ 20 = 0) ∧
    (∃ n : Int, (stamp { ready with beat := BitVec.ofNat 64 (2 ^ 20) } 15 : Int) = 2 ^ 24 * n + 15) := by
  refine ⟨by decide +kernel, by decide +kernel, by decide +kernel, by decide +kernel, by decide +kernel, by decide +kernel, 1, ?_⟩
  decide +kernel

/-- The module in a partner state with a lease. -/
def leased (v : Nat) (l : Lease) (beat : BitVec 64) : State := { ready.setFld aPrtState 2 0 v with lease := l, beat := beat }

theorem witness_PartnerLease :
    (∀ v ∈ [prtLead, prtPairing, prtShadow, prtFenced, prtSyncing], prtState (leased v {} 0) = v) ∧
      (let l : Lease := {}
       l.yieldSent = none ∧ l.refusing = false ∧ l.num.toNat ≤ (0 : Word).toNat) ∧
      (let l : Lease := { refusing := true, num := 1 }
       l.refusing = true ∧ (0 : Word).toNat < l.num.toNat) ∧
      (let l : Lease := { sent := [(1, 0)] }
       l.sent.find? (fun x => x.1 = 1) = some (1, 0) ∧ l.sent.find? (fun x => x.1 = 2) = none) ∧
      cutoffPassed (leased prtLead { grantSent := some 0 } 1950000) = true ∧
      cutoffPassed (leased prtLead { grantSent := some 0 } 1949999) = false ∧
      (∀ b ∈ [2199999, 2200000], (leased prtShadow { granted := some 0 } (BitVec.ofNat 64 b)).beat.toNat = b ∧
        (leased prtShadow { granted := some 0 } (BitVec.ofNat 64 b)).lease.granted = some 0) ∧
      (∀ b ∈ [999999, 1000000], (leased prtLead { yieldSent := some 0 } (BitVec.ofNat 64 b)).beat.toNat = b ∧
        (leased prtLead { yieldSent := some 0 } (BitVec.ofNat 64 b)).lease.yieldSent = some 0) ∧
      ∀ b ∈ [4, 5], (leased prtShadow { yieldTake := some 5 } (BitVec.ofNat 64 b)).beat.toNat = b := by decide +kernel

/-- A copy in progress with `n` dirty pages of stacks in round `r`. -/
def copying (stepping : Bool) (n r : Nat) : CopyOp :=
  { round := r, dirty := (List.range n).map (· * 0x200000), stepping := stepping, hold := [0], done := [] }

def hashRec (hash : BitVec 64) : HashRec :=
  { id := { ctx := 0, die := 0, caller := 0, step := 0, cmpSeq := 0 }, pc := 0, layer := 0, operator := 0, hash := hash }

/-- Mirror-compare runs and holds an own hash entered at time 0; `t` ns. -/
def comparing (t : Nat) : State :=
  { ready.setBit aMcCtl 31 true with mc := [{ own := true, h := hashRec 7, entered := 0 }], clock := 1000 * t }

theorem witness_RejoinAndMirror :
    prtState (leased prtLead {} 0) = prtLead ∧ ready.copyOp = none ∧ (copying true 0 1).stepping = true ∧
      runBytes (dirtyRuns (copying false 2 1)) ≤ 0x400000 ∧ 8 ≤ (copying false 3 8).round ∧
      0x400000 < runBytes (dirtyRuns (copying false 3 7)) ∧ (copying false 3 7).round < 8 ∧ (0 : CtxId) ∈ (copying true 0 1).hold ∧
      residents (setCtxState ready 0 ctxIdle) = [0] ∧ prtState (leased prtSyncing {} 0) = prtSyncing ∧
      (leased prtLead {} 0).lease.yieldSent = none ∧
      (let s := ((leased prtShadow {} 0).setBit aPrtCfg 30 true).setBit aPrtCfg 29 true
       prtState s = prtShadow ∧ s.bit aPrtCfg 30 = true ∧ s.bit aPrtCfg 29 = true) ∧
      (mcEnabled (comparing 0) = true ∧ mcHalted (comparing 0) = false ∧ (comparing 0).mc.length < 1024 ∧
        (∀ e ∈ (comparing 0).mc, e.own = false → e.h.id ≠ (hashRec 7).id) ∧
        (comparing 0).mc.find? (fun e => e.h.id = (hashRec 7).id) = some { own := true, h := hashRec 7, entered := 0 } ∧
        (hashRec 7).hash ≠ (hashRec 8).hash ∧ hashPending (comparing 0) (hashRec 7).id = false ∧ mcEnabled ready = false ∧
        ∀ e ∈ (comparing 0).mc, e.h.id ≠ { (hashRec 7).id with ctx := 63 }) ∧
      (∀ b ∈ [9999999, 10000000], (comparing b).ns = b) := by decide +kernel

/-! ### Witnesses: the host link's training -/

/-- A training block of a phase, every lane aligned or none, with its check symbol. -/
def block (ph aligned : Nat) : List (BitVec 16) :=
  let b := [BitVec.ofNat 16 (16 * ph), BitVec.ofNat 16 (aligned + 3 * 256)] ++ List.replicate 12 0
  b ++ [BitVec.ofNat 16 (crc16 b).toNat]

/-- The host link in a state, with `h`; both rates offered, up to eight lanes. -/
def hlkAt (v : Nat) (h : Hlk) : State :=
  { (((ready.setFld aHlkState 2 0 v).setFld aHlkCfg 5 4 3).setBit aHlkCfg 6 true) with hlk := h }

theorem witness_HostLinkTraining :
    (hlkSelect (hlkAt 2 { pass20 := 0xFF, farPass20 := 0xFF, pass40 := 0xF, farPass40 := 0xFF }) = some (8, false) ∧
      hlkSelect (hlkAt 2 { pass20 := 0xF, farPass20 := 0xFF, pass40 := 0xFF, farPass40 := 0xFF }) = some (8, true) ∧
      hlkSelect (hlkAt 2 {}) = none) ∧
    (blockOk [] = false ∧ blockOk (block phReset 0) = true ∧ blockPhase (block phReset 0) = phReset ∧ hlkState (hlkAt hlkUp {}) ≠ 0 ∧
      hlkState (hlkAt hlkUp {}) ≠ hlkDetect) ∧
    (∀ ph ∈ [phDetect, phEq, phSelect, phConfirm], blockOk (block ph 0xFF) = true ∧ blockPhase (block ph 0xFF) = ph ∧ phDetect ≤ ph ∧
      ph ≤ phConfirm ∧ (let s := hlkAt hlkTrain { phase := ph }
        hlkState s ≠ 0 ∧ hlkState s ≠ hlkUp ∧ s.hlk.retrain = false ∧ s.hlk.phase = ph)) ∧
    (blockOk (block phDetect 0) = true ∧ symAt (block phDetect 0) 2 % 256 = 0 ∧
      (0 ||| lane8 7) &&& BitVec.ofNat 8 (symAt (block phDetect 0xFF) 2 % 256) ≠ 0) ∧
    (∀ r, (hlkAt hlkTrain { phase := phConfirm, sel := some (8, r), farSel := some (8, r) }).hlk.sel = some (8, r)) ∧
    (hlkState (hlkAt hlkRetrain { fails := 1 }) = hlkRetrain ∧ (hlkAt hlkRetrain { fails := 1 }).hlk.fails < 2 ∧
      2 ≤ (hlkAt hlkRetrain { fails := 2 }).hlk.fails ∧ (hlkAt hlkRetrain {}).bit aHlkState 3 = false ∧
      ((hlkAt hlkUp {}).setBit aHlkState 3 true).bit aHlkState 3 = true ∧ hlkState (hlkAt 0 {}) = 0 ∧ (hlkAt hlkUp {}).x15Host = false) ∧
    ((hlkAt hlkUp {}).bit (aHlkLane 7) 0 = false ∧ ((hlkAt hlkUp {}).setBit (aHlkLane 7) 0 true).bit (aHlkLane 7) 0 = true) ∧
    (let s := ((hlkAt hlkUp {}).setFld aHlkCfg 15 8 1).setLink pfl
       { toldAck := some 0xFFFF, told := [(0, some 0), (1, some 0), (2, some 0), (3, some 0)] }
     hlkState s = hlkUp ∧ s.fld aHlkCfg 15 8 ≠ 0 ∧ nothingToSend s = true) ∧
    (let four := List.replicate 4 (BitVec.ofNat 18 (controlSym kSync))
     syncsMissed [0, 0, 0] = false ∧ syncsMissed [0, 0, 0, 0] = true ∧ syncsMissed (0 :: four) = false ∧ burstAligns (0 :: four) = true ∧
       burstAligns (four.drop 1) = false ∧ pflLanes (hlkAt hlkUp {}) = 0 ∧
       pflLanes ((hlkAt hlkUp {}).setFld aHlkState 11 8 8) = 8) ∧
    (128 ≤ min (128 : Byte).toNat (countFigure 0) ∧ SMap.get (fun _ => (0, 0, 0)) (hlkAt hlkUp {}).hlk.asked 7 = (0, 0, 0) ∧
      96 ≤ min (96 : Byte).toNat (countFigure 0) ∧ min (95 : Byte).toNat (countFigure 0) < 96 ∧
      (∀ n ∈ [63, 64], let s := hlkAt hlkTrain { phase := phEq, requests := [(7, n)] }
        hlkState s = hlkTrain ∧ s.hlk.phase = phEq ∧ s.hlk.eqDone.getLsbD 7 = false ∧ SMap.get (fun _ => 0) s.hlk.requests 7 = n)) := by
  decide +kernel

/-! ### Witnesses: starts, resets, image, attestation -/

/-- A start in phase `n`. -/
def startAt (n : Nat) : State :=
  { ready.setFld aHubBoot 31 28 (phaseState n) with boot := { ready.boot with phase := n } }

def flashing (op : Fin 3) : State :=
  { ready with boot := { ready.boot with flashOp := some { op := op, addr := 0x1000000, buf := zeros 256 } } }

theorem witness_StartsAndResets :
    (∀ p ∈ [(1, 1), (2, 2), (3, 2), (4, 2), (5, 2), (6, 3), (7, 4), (8, 5)],
      (startAt p.1).boot.phase = p.1 ∧ bootState (startAt p.1) = p.2 ∧ fatalLatched (startAt p.1) = false ∧ alignState (startAt p.1) ≠ 1) ∧
    alignState ((startAt 8).setFld aMmAlign 2 0 1) = 1 ∧ ready.boot.phase = 0 ∧ State.reset.boot.island = true ∧
    bootState State.reset = 0 ∧ ({ State.reset with boot := { State.reset.boot with island := false } } : State).boot.island = false ∧
    (State.reset.boot.startFrom ≤ State.reset.clock ∧
      (let s : State := { State.reset with boot := { State.reset.boot with startFrom := 1 } }
       s.clock < s.boot.startFrom)) ∧
    ((startAt 8).boot.phaseAt + (startAt 8).image.extWait * 1000000000 ≤ (startAt 8).clock ∧
      (let s : State := { (startAt 8).setBit aMmCfg 9 true with image := { ready.image with extWait := 1 } }
       s.clock < s.boot.phaseAt + s.image.extWait * 1000000000 ∧ s.bit aMmCfg (8 + (ownModule s + 0 / 2 + 1) % 8) = true ∧
         lnkState s 0 ≠ lnkUp)) ∧
    ((startAt 1).pins.xspiReset = none ∧
      ({ startAt 1 with pins := { ready.pins with xspiReset := some 0 } } : State).pins.xspiReset.isSome = true) ∧
    (domOn (startAt 5) 11 = true ∧ tdState ((startAt 5).setFld (aTdState 11) 2 0 tdInit) 11 = tdInit ∧
      rngState ((startAt 6).setFld (aRngState 131) 2 0 rngSearch) 131 = rngSearch ∧ tdState (startAt 7) 11 = tdServe) ∧
    memState stack31 31 = memInService ∧ bootState (ready.setFld aHubBoot 31 28 bootQuiescing) = bootQuiescing ∧
    (∀ op ∈ [0, 1, 2], (flashing (Fin.ofNat 3 op)).boot.flashOp = some { op := Fin.ofNat 3 op, addr := 0x1000000, buf := zeros 256 }) ∧
    (ready.bit aHubAttctl 30 = false ∧ (ready.setBit aHubAttctl 30 true).bit aHubAttctl 30 = true ∧
      ({ ready with boot := { ready.boot with key := some 0 } } : State).boot.key = some 0) := by decide +kernel

/-- The module FAULTED with its device key set. -/
def faultedState : State := (ready.setFld aHubBoot 31 28 bootFaulted).setBit aHubBoot 17 true

theorem witness_FatalLatchOutlivesResets :
    HostAdmits ready hdr ∧ getF (0xA5000001 : Word) 31 24 = 0xA5 ∧ (0xA5000001 : Word).getLsbD 0 = true ∧
    (∀ n ∈ [1, 2], let s := (startAt n).setBit aFltStatus3 31 true
      fatalLatched s = true ∧ s.boot.phase = n ∧ bootState s = n ∧ s.pins.xspiReset = none) ∧
    (hostOpen faultedState = true ∧ hdr.x15 = faultedState.x15Host ∧ hdr.rsvd = 0 ∧ hdr.chField = hdr.ch ∧
      ctxPrivileged faultedState hdr.ch = false ∧ bootState faultedState = bootFaulted) ∧
    (aFltStatus3 % 4 = 0 ∧ (∃ r, regAt aFltStatus3 = some r ∧ regOn faultedState r aFltStatus3 = true) ∧
      latchOf faultedState (.host hdr.ch) = none) ∧
    attestOk faultedState = true ∧ (∀ a ∈ [0xE7C, 0xEB0], a ≠ aHubAttctl ∧ ¬(0xE80 ≤ a ∧ a < 0xEB0)) ∧
    (zeros 2048).length = 4 * 512 ∧ (∀ j, j < 512 → ¬(0x4000 + 4 * j = aHubAttctl ∨ (0xE80 ≤ 0x4000 + 4 * j ∧ 0x4000 + 4 * j < 0xEB0))) ∧
    hostPart (.memRd hdr 0 0) = some (hdr, .mem) ∧ hostPart (.planLoad hdr) = some (hdr, .reg) :=
  ⟨ready_admits, by decide +kernel, by decide +kernel, by decide +kernel, by decide +kernel,
    ⟨by decide +kernel, ⟨_, rfl, by decide +kernel⟩, by decide +kernel⟩, by decide +kernel, by decide +kernel, by decide +kernel,
    fun j _ h => by
      rcases h with h | ⟨-, h⟩
      · exact absurd (show 0x4000 ≤ aHubAttctl by omega) (by decide)
      · omega,
    by decide, by decide⟩

/-! ### Witnesses: faults, sensors, power -/

def faultOf (cls : Fin 3) : FaultReport := { corrected 31 0x30 0 with cls := cls, subtype := 2, inst := 15 }

/-- Source 31's escalation timer with `n` ticks left. -/
def timed (n : Nat) : State :=
  { ready with flt := { ready.flt with timers := [(31, some { code := 0x31, left := n, scopes := [(2, 15)] })] } }

/-- ERR_N low in a pulse; high with a pulse deferred, released `n` ns ago. -/
def pulsing : State := { ready.setBit aFltErrn 30 true with pins := { ready.pins with errPulse := true } }
def deferred (n : Nat) : State :=
  { ready with clock := 1000 * n, pins := { ready.pins with errDeferred := true, errReleased := some 0 } }

theorem witness_FaultCollector :
    hubOn ready = true ∧ hubOn State.reset = false ∧
    (∀ v, (ready.setBit (aFltFe1) 31 v).bit aFltFe1 31 = v ∧ (ready.setBit aFltCfg 31 v).bit aFltCfg 31 = v ∧
      fatalLatched (ready.setBit aFltStatus3 31 v) = v ∧ (pulsing.setBit aFltErrn 31 v).bit aFltErrn 31 = v) ∧
    (∀ c ∈ [0, 1, 2], (ready.setBit aFltErrn c true).bit aFltErrn c = true ∧ errLow (ready.setBit aFltErrn c true) = false ∧
      errGapOver (ready.setBit aFltErrn c true) = true ∧ (ready.setBit aFltErrn c true).pins.errPulse = false) ∧
    (timerOf ready 31 = none ∧ ∀ n ∈ [0, 1], timerOf (timed n) 31 = some { code := 0x31, left := n, scopes := [(2, 15)] }) ∧
    ready.rd aFltStatus3 = 0 ∧
    (let s := running ctx0 (doneRun 7)
     runs s 0 0 0 = true ∧ memState stack31 31 = memInService ∧ prtState (leased prtLead {} 0) = prtLead) ∧
    (∀ j, j < 31 → ∀ e', timerOf (timed 0) j = some e' → e'.left ≠ 0) ∧
    pulsing.pins.errPulse = true ∧ errLow pulsing = true ∧
    (deferred 2000).pins.errDeferred = true ∧ errLow (deferred 2000) = false ∧ errGapOver (deferred 2000) = true ∧
    errGapOver (deferred 1999) = false := by
  refine ⟨by decide +kernel, by decide +kernel, by decide +kernel, by decide +kernel, by decide +kernel, by decide +kernel,
    by decide +kernel, fun j hj e' he => ?_, by decide +kernel⟩
  rw [timerOf, timed, SMap.get, if_neg (by omega)] at he
  exact absurd he (by simp [SMap.get])

def brokenSensor : State := ready.setBit (aTpSens 263) 31 true

def dieOpOf (restore draining : Bool) : State := { ready with dieOp := some { die := 11, restore := restore, draining := draining } }

theorem witness_ThermalAndPower :
    (domOn ready (sensorDomain 263) = true ∧ domOn State.reset (sensorDomain 263) = false ∧ sensorBroken ready 263 = false ∧
      sensorBroken brokenSensor 263 = true ∧ -640 ≤ max (-640 : Int) (-641) ∧ max (-640 : Int) (-641) ≤ 2400 ∧
      max (-641 : Int) (-642) < -640 ∧ 2400 < max (2401 : Int) 0) ∧
    (263 ∈ ({ brokenSensor with recheck := [263] } : State).recheck ∧ (263 : Fin 264) ∉ ready.recheck) ∧
    (∀ i : Fin 264, domOn ready (sensorDomain i) = true) ∧
    (∀ d ∈ [0, 12, 16, 17, 18, 19], domOn ready d = true) ∧
    ((dieOpOf false true).dieOp = some { die := 11, restore := false, draining := true } ∧ drained (dieOpOf false true) 11 = true ∧
      (dieOpOf true false).dieOp = some { die := 11, restore := true, draining := false } ∧ ready.dieOp = none) ∧
    (let s := (List.range 8).foldl (fun s j => s.setFld (aRngState (88 + j)) 2 0 rngUp) ready
     ∀ j, j < 8 → rngState s (8 * 11 + j) = rngUp) ∧
    (∃ j, j < 8 ∧ rngState (ready.setFld (aRngState 95) 2 0 rngDown) (8 * 11 + j) = rngDown) := by decide +kernel

/-! ### Witnesses: debug, dumps, I3C -/

theorem leBytes_length (n v : Nat) : (leBytes n v).length = n := by
  induction n generalizing v with
  | zero => rfl
  | succ n ih => simp [leBytes, ih]

theorem padTo_length (n : Nat) (bs : List Byte) : (padTo n bs).length = n := by
  simp [padTo]; omega

theorem length_flatMap_const {α : Type} (l : List α) (f : α → List Byte) (k : Nat) (h : ∀ x ∈ l, (f x).length = k) :
    (l.flatMap f).length = l.length * k := by
  induction l with
  | nil => simp
  | cons x l ih =>
    rw [List.flatMap_cons, List.length_append, h x (by simp), ih fun y hy => h y (by simp [hy]), List.length_cons]
    rw [Nat.succ_mul, Nat.add_comm]

theorem dumpTags_length (s : State) : (dumpTags s).length = 49152 := by
  have h16 (a b c d : Byte) (x y : Nat) (z : BitVec 64) :
      ([a, b, c, d] ++ leBytes 4 x ++ leBytes 4 y ++ sinceBeat s z).length = 16 := by
    simp only [sinceBeat, List.length_append, List.length_cons, List.length_nil, leBytes_length]
  have ht (d : DieId) (t : Fin 256) : (dumpTag s d t).length = 16 := by
    unfold dumpTag
    split
    · exact h16 _ _ _ _ _ _ _
    · split
      · split
        · exact h16 _ _ _ _ _ _ _
        · exact List.length_replicate
      · exact List.length_replicate
  rw [dumpTags, length_flatMap_const _ _ 4096 fun d _ => by
    rw [length_flatMap_const _ _ 16 fun t _ => ht d t, List.length_finRange], List.length_finRange]

theorem dumpReads_length (s : State) : (dumpReads s).length = 65536 := by
  have ht (k t : Nat) : (dumpRead s k t).length = 16 := by
    unfold dumpRead
    split <;> simp only [sinceBeat, List.length_append, List.length_cons, List.length_nil, leBytes_length, List.length_replicate]
  rw [dumpReads, length_flatMap_const _ _ 16384 fun k _ => by
    rw [length_flatMap_const _ _ 16 fun t _ => ht k t, List.length_range], List.length_range]

theorem dumpSyncs_length (s : State) : (dumpSyncs s).length = 32768 := by
  rw [dumpSyncs, length_flatMap_const _ _ 8 fun i _ => leBytes_length _ _, List.length_range]

theorem dumpWaiters_length (s : State) : (dumpWaiters s).length = 1024 := by
  rw [dumpWaiters, length_flatMap_const _ _ 16 fun i _ => by split; · exact padTo_length _ _
                                                             · simp, List.length_finRange]

theorem dumpCells_length (s : State) : (dumpCells s).length = 16384 := by
  rw [dumpCells, length_flatMap_const _ _ 64 fun i _ => by simp only [List.length_append, padTo_length, leBytes_length],
    List.length_range]

theorem dumpReels_length (s : State) (h : s.dbg.reels = []) : (dumpReels s).length = 786432 := by
  have ht (d : DieId) : (dumpReel s d).length = 65536 := by
    have e : (s.reel d).total = 0 := by rw [State.reel, h]; rfl
    simp only [dumpReel, e, Nat.min_zero, List.range_zero, List.flatMap_nil, List.append_nil, List.length_replicate]
  rw [dumpReels, length_flatMap_const _ _ 65536 fun d _ => ht d, List.length_finRange]

theorem dumpHeader_length (s : State) (o : DumpOp) : (dumpHeader s o).length = 4096 := by
  simp only [dumpHeader, List.length_append, padTo_length, leBytes_length]

/-- Writes to a stack leave the registers as they are while no pattern is armed for it. -/
theorem regs_write (s : State) (pa st off : Nat) (bs : List Byte) (hp : place 8 pa = .stack st off) (hi : s.bit (aFltInj 2) 31 = false) :
    (s.write pa bs).regs = s.regs := by
  unfold State.write
  split
  · rfl
  · have hm (t : State) (n : Nat) : (t.markDirty pa n).regs = t.regs := by unfold State.markDirty; split <;> rfl
    have hj (t : State) (ht : t.regs = s.regs) : (t.injectAt pa).regs = s.regs := by
      have hb : t.bit (aFltInj 2) 31 = false := by rw [State.bit, State.rd, ht]; exact hi
      simp [State.injectAt, hp, State.inject, hb, ht]
    exact (hm _ _).trans (hj _ rfl)

theorem memWritable_regs (s t : State) (m : Master) (pa n : Nat) (h : t.regs = s.regs) : memWritable t m pa n = memWritable s m pa n := by
  have hr (a : Nat) : t.rd a = s.rd a := by rw [State.rd, h]; rfl
  have ho : ownModule t = ownModule s := by rw [ownModule, ownModule, State.fld, State.fld, hr]
  have h₁ (st : Nat) : stackServes t st = stackServes s st := by
    unfold stackServes mUp memState State.bit State.fld
    rw [hr, hr]
  have h₂ (d : Nat) : sramServes t d = sramServes s d := by
    unfold sramServes domOn State.fld
    rw [hr, hr]
  unfold memWritable
  rw [ho]
  split <;> simp only [h₁, h₂]

/-- Every write of a dump is taken by a stack in service with room for it. -/
theorem writes_taken (base st off : Nat) (xs : List (Nat × List Byte)) (s : State) (ok : Bool) (hi : s.bit (aFltInj 2) 31 = false)
    (hw : ∀ x ∈ xs, memWritable s masterHub (base + x.1) x.2.length = .ok)
    (hp : ∀ x ∈ xs, place 8 (localPa (ownModule s) (base + x.1)) = .stack st (off + x.1)) :
    (xs.foldl (fun (p : State × Bool) (x : Nat × List Byte) =>
      match memWrite p.1 masterHub (base + x.1) x.2 with
      | (s₁, .ok) => (s₁, p.2)
      | (s₁, _) => (s₁, false)) (s, ok)).2 = ok := by
  induction xs generalizing s with
  | nil => rfl
  | cons x xs ih =>
    have e : memWrite s masterHub (base + x.1) x.2 = (s.write (localPa (ownModule s) (base + x.1)) x.2, .ok) := by
      rw [memWrite, hw x (by simp)]
    have hr := regs_write s (localPa (ownModule s) (base + x.1)) st (off + x.1) x.2 (hp x (by simp)) hi
    have ho : ownModule (s.write (localPa (ownModule s) (base + x.1)) x.2) = ownModule s := by
      rw [ownModule, State.fld, State.rd, hr]; rfl
    rw [List.foldl_cons]
    simp only [e]
    refine ih _ ?_ (fun y hy => ?_) fun y hy => ?_
    · rw [State.bit, State.rd, hr]; exact hi
    · rw [memWritable_regs _ _ _ _ _ hr]; exact hw y (by simp [hy])
    · rw [ho]; exact hp y (by simp [hy])

/-- A dump to the first bytes of stack 31, and one to an address that no stack has. -/
def dumpOf (base : BitVec 48) : DumpOp := { base := base, cause := 2, die := 0, caller := 0, first := 0, image := zeros 6144 }
def dumping (base : BitVec 48) : State :=
  { (stack31.setBit aDbgDumpctl 28 true).setFld aHlkState 2 0 3 with dbg := { ready.dbg with dump := some (dumpOf base) } }

theorem dump_written : (writeDump (dumping 0x1F000000000) (dumpOf 0x1F000000000)).2 = true := by
  have hs : dumpSections (dumping 0x1F000000000) = [(0x3000, dumpTags (dumping 0x1F000000000)), (0x10000, dumpReads (dumping 0x1F000000000)),
    (0x20000, dumpSyncs (dumping 0x1F000000000)), (0x28000, dumpWaiters (dumping 0x1F000000000)),
    (0x29000, dumpCells (dumping 0x1F000000000)), (0x40000, dumpReels (dumping 0x1F000000000))] := rfl
  rw [writeDump]
  refine writes_taken 0x1F000000000 31 0 _ _ _ (by decide +kernel) (fun x hx => ?_) fun x hx => ?_
  · rw [hs] at hx
    simp only [List.mem_cons, List.mem_append, List.not_mem_nil, or_false] at hx
    rcases hx with rfl | (rfl | rfl | rfl | rfl | rfl | rfl) | rfl
    · rw [show (dumpOf 0x1F000000000).image.length = 6144 from List.length_replicate]; decide +kernel
    · rw [dumpTags_length]; decide +kernel
    · rw [dumpReads_length]; decide +kernel
    · rw [dumpSyncs_length]; decide +kernel
    · rw [dumpWaiters_length]; decide +kernel
    · rw [dumpCells_length]; decide +kernel
    · rw [dumpReels_length _ rfl]; decide +kernel
    · rw [dumpHeader_length]; decide +kernel
  · rw [hs] at hx
    simp only [List.mem_cons, List.mem_append, List.not_mem_nil, or_false] at hx
    rcases hx with rfl | (rfl | rfl | rfl | rfl | rfl | rfl) | rfl <;> decide +kernel

theorem writes_refused (base : Nat) (xs : List (Nat × List Byte)) (s : State) (ok : Bool)
    (hw : ∀ x ∈ xs, memWritable s masterHub (base + x.1) x.2.length = .address) (hx : xs ≠ []) :
    (xs.foldl (fun (p : State × Bool) (x : Nat × List Byte) =>
      match memWrite p.1 masterHub (base + x.1) x.2 with
      | (s₁, .ok) => (s₁, p.2)
      | (s₁, _) => (s₁, false)) (s, ok)).2 = false := by
  induction xs generalizing ok with
  | nil => exact absurd rfl hx
  | cons x xs ih =>
    have e : memWrite s masterHub (base + x.1) x.2 = (s, .address) := by rw [memWrite, hw x (by simp)]
    rw [List.foldl_cons]
    simp only [e]
    by_cases hn : xs = []
    · rw [hn]; rfl
    · exact ih _ (fun y hy => hw y (by simp [hy])) hn

theorem dump_refused : (writeDump (dumping 0x900000000) (dumpOf 0x900000000)).2 = false := by
  rw [writeDump]
  refine writes_refused 0x900000000 _ _ _ (fun x hx => ?_) (by simp)
  have e : ∀ o ∈ [0, 0x1000, 0x3000, 0x10000, 0x20000, 0x28000, 0x29000, 0x40000],
      place (ownModule (dumping 0x900000000)) (0x900000000 + o) = .none := by decide +kernel
  have ho : x.1 ∈ [0, 0x1000, 0x3000, 0x10000, 0x20000, 0x28000, 0x29000, 0x40000] := by
    simp only [dumpSections, List.mem_cons, List.mem_append, List.not_mem_nil, or_false] at hx
    rcases hx with rfl | (rfl | rfl | rfl | rfl | rfl | rfl) | rfl <;> simp
  rw [memWritable, e x.1 ho]

/-- A reel of die 11 that buffers the last record of its ring's last line; a line of it on its way to the host. -/
def reeled : State := { ready with dbg := { ready.dbg with reels := [(11, { buf := [(65535, zeros 16)] })] } }
def exporting : State :=
  { ready.setFld aHlkState 2 0 3 with dbg := { ready.dbg with exportBuf := [{ die := 11, idx := 65528, data := zeros 128 }] } }

/-- Caller 0 of die 0 runs context 0 and has been idle for `n` beats; the watchdog's limit is 1. -/
def idling (n : Nat) : State :=
  { ((running ctx0 (doneRun 7)).setFld aDbgWd 15 0 1).setBit aDbgDumpctl 27 false with dbg := { ready.dbg with idleBeats := [(0, n)] } }

theorem witness_DebugAndI3C :
    (reeled.bit (aDbgReelctl 11) 30 = false ∧ reeled.now.landed = [] ∧ (∀ e ∈ (reeled.reel 11).buf, e.1 < 65536 ∧ e.2.length = 16) ∧
      ((reeled.reel 11).buf.map (·.1)).Nodup ∧ (reeled.reel 11).buf ≠ []) ∧
    (exporting.dbg.exportBuf = { die := 11, idx := 65528, data := zeros 128 } :: [] ∧ hostUp exporting = true ∧ exporting.places6 (11 / 3) = 20 ∧
      ({ exporting with base := { exporting.base with free6 := [(6, 0)] } } : State).places6 (11 / 3) = 0 ∧ ready.dbg.exportBuf = [] ∧
      hostUp ready = false) ∧
    (((idling 1024).caller 0 0).ctx = some 0 ∧ watchdogDue (idling 1024) 0 0 = true ∧ watchdogDue (idling 1023) 0 0 = false ∧
      (idling 1024).bit aDbgDumpctl 27 = false ∧
      (let s := ((idling 1024).setBit aDbgDumpctl 27 true).setBit aDbgDumpctl 30 true
       s.bit aDbgDumpctl 27 = true ∧ dumpArmed s = true ∧ dumpBusy s = false ∧ watchdogDue s 0 0 = true)) ∧
    ((writeDump (dumping 0x1F000000000) (dumpOf 0x1F000000000)).2 = true ∧ (writeDump (dumping 0x900000000) (dumpOf 0x900000000)).2 = false ∧
      ready.dbg.dump = none) ∧
    (ready.boot.island = true ∧ i3cReads 0xFFC = false ∧ i3cReads aTpCfg = true ∧
      (∃ r, regAt aTpCfg = some r ∧ regOn ready r aTpCfg = true) ∧ latchOf ready .i3c = none ∧ i3cWrites aHubBoot = none) ∧
    (∀ w ∈ [3000, 6000], getF (BitVec.ofNat 32 (w * 65536)) 28 16 = w) ∧
    (∀ v ∈ [70, 110], (ready.setFld aTpCfg 6 0 v).fld aTpCfg 6 0 = v ∧ (ready.setFld aTpCfg 6 0 v).boot.island = true) :=
  ⟨by decide +kernel, by decide +kernel, by decide +kernel, ⟨dump_written, dump_refused, rfl⟩,
    ⟨by decide +kernel, by decide +kernel, by decide +kernel, ⟨_, rfl, by decide +kernel⟩, by decide +kernel, by decide +kernel⟩,
    by decide +kernel, by decide +kernel⟩

/-! ### Witnesses: writes of one register -/

/-- States in which the hub's registers take or refuse a write. -/
def hubFlag (a b : Nat) : State := ready.setBit a b true
def gfwAt (v : Nat) : State := (ready.setBit aHubInv 16 true).setFld aGfwState 2 0 v
def partnerAt (v : Nat) : State := ready.setFld aPrtState 2 0 v
def flashAt (a : Nat) : State := ready.setFld aHubFlashaddr 24 0 a

theorem hub_admits :
    (∀ x ∈ [(aHubTlbstat, 0), (aHubPlanstat, 31), (aHubPlanstat, 30), (aHubPlanstat, 29), (aHubLgt, 30), (aHubMode, 0), (aHubFlashctl, 30),
      (aHubBoot, 17)], HostAdmits (hubFlag x.1 x.2) hdr) ∧
    (∀ v ∈ [gfwReset, gfwAttested, gfwOpened], HostAdmits (gfwAt v) hdr) ∧
    (∀ v ∈ [prtPairing, prtLead, prtFenced], HostAdmits (partnerAt v) hdr) ∧
    (∀ a ∈ [0, 0x1000000, 0x1000080, 0x1000100], HostAdmits (flashAt a) hdr) ∧
    HostAdmits ((hubFlag aHubMode 0).setBit aHubMode 1 true) hdr ∧
    ∀ v ∈ [ctxEmpty, ctxIdle, ctxReady], HostAdmits (setCtxState ready 63 v) hdr := by
  unfold HostAdmits; decide +kernel

theorem witness_HubWrites :
    (∀ v ∈ [ctxEmpty, ctxIdle, ctxReady], ctxState (setCtxState ready 63 v) 63 = v ∧
      allEmpty (setCtxState ready 63 v) = decide (v = ctxEmpty)) ∧
    ((0x80000000 : Word).getLsbD 31 = true ∧ getF (0x80000200 : Word) 9 8 ≠ 3 ∧ getF (0x80000300 : Word) 9 8 = 3 ∧
      ready.bit aHubTlbstat 0 = false ∧ (hubFlag aHubTlbstat 0).bit aHubTlbstat 0 = true) ∧
    (planBusy ready = false ∧ planPending ready = false ∧ planReady ready = false ∧ planBusy (hubFlag aHubPlanstat 31) = true ∧
      planPending (hubFlag aHubPlanstat 29) = true ∧ planReady (hubFlag aHubPlanstat 30) = true ∧
      planPending (hubFlag aHubPlanstat 30) = false) ∧
    ((ready.fresh aMcFirst0).getLsbD 31 = false ∧ domOn ready 16 = true ∧ beatSignals ready 255 = 0 ∧
      beatSignals { ready with now := { ready.now with signals := [(255, 1048575)] } } 255 = 1048575) ∧
    (lgtBusy ready = false ∧ lgtBusy (hubFlag aHubLgt 30) = true) ∧
    (∀ v ∈ [prtPairing, prtLead, prtFenced], prtState (partnerAt v) = v ∧ (partnerAt v).lease.yieldSent = none) ∧
    (let s := (hubFlag aHubMode 0).setBit aHubMode 1 true
     detStrict s = true ∧ (2 : Word).getLsbD 0 = false ∧ s.bit aHubMode 1 = true ∧ (1 : Word).getLsbD 0 = true ∧ detStrict ready = false) ∧
    (getF (0xA5000002 : Word) 31 24 = 0xA5 ∧ (0xA5000002 : Word).getLsbD 1 = true ∧ (0xA5000002 : Word).getLsbD 0 = false ∧
      getF (2 : Word) 31 24 ≠ 0xA5) ∧
    (flashOk (flashAt 0) 0 = false ∧ (∀ n ∈ [0, 1, 2], flashOk (flashAt 0x1000000) n = true) ∧ flashOk (flashAt 0x1000080) 0 = false ∧
      flashOk (flashAt 0x1000100) 1 = true ∧ flashOk (flashAt 0x1000100) 2 = false ∧ flashOk (hubFlag aHubFlashctl 30) 0 = false) ∧
    (attestOk (hubFlag aHubBoot 17) = true ∧ attestOk ready = false) ∧
    (∀ v ∈ [gfwReset, gfwAttested, gfwOpened], guestFitted (gfwAt v) = true ∧ gfwState (gfwAt v) = v) := by decide +kernel

/-- A register whose holder has power. -/
theorem powered_of (s : State) (a : Nat) (h : (regAt a).all (fun r => regOn s r a) = true) : ∀ r, regAt a = some r → regOn s r a = true := by
  intro r hr
  rw [hr] at h
  simpa using h

theorem ready_powered : ∀ a ∈ [aPbMemctl 3 7, aRngSuspect 131, aRngCtl 131, aRngCtl 95, aLbCtl 7, aDbgSample 11, aDbgReelctl 11, aDbgTrigcfg1 11],
    ∀ r, regAt a = some r → regOn ready r a = true := by
  have h : ∀ a ∈ [aPbMemctl 3 7, aRngSuspect 131, aRngCtl 131, aRngCtl 95, aLbCtl 7, aDbgSample 11, aDbgReelctl 11, aDbgTrigcfg1 11],
      (regAt a).all (fun r => regOn ready r a) = true := by decide +kernel
  exact fun a ha => powered_of ready a (h a ha)

/-- One field of one register changed, in a module that still admits the host. -/
def fieldAs (a hi lo v : Nat) : State := ready.setFld a hi lo v

theorem block_admits :
    (∀ x ∈ [(aPbMemstat 3 7, 2, memFailed), (aRngState 131, 2, rngDown), (aRngState 131, 2, rngUp), (aTdState 11, 2, tdRetired),
      (aTdState 11, 2, tdInit), (aHlkState, 2, hlkUp)], HostAdmits (fieldAs x.1 x.2.1 0 x.2.2) hdr ∧ (fieldAs x.1 x.2.1 0 x.2.2).fld x.1 x.2.1 0 = x.2.2) ∧
    (∀ v ∈ [lineActive, lineLost], HostAdmits (fieldAs (aLbLine 7 17) 31 29 v) hdr ∧ lineState (fieldAs (aLbLine 7 17) 31 29 v) 7 17 = v) ∧
    (∀ v ∈ [lnkDown, lnkUp], HostAdmits (linkAt v {}) hdr ∧ lnkState (linkAt v {}) 15 = v) ∧
    HostAdmits ((linkAt lnkDown {}).setBit (aLnkState 15) 8 true) hdr ∧ HostAdmits (timed 0) hdr ∧ HostAdmits (timed 1) hdr ∧
    HostAdmits brokenSensor hdr ∧ HostAdmits (dieOpOf false true) hdr := by
  unfold HostAdmits; decide +kernel

/-- Source 31's event recorded, its cause present or not. -/
def recordedFault (present : Bool) : State :=
  { (fieldAs aFltStatus1 31 31 1) with
    flt := { ready.flt with recorded := [(31, [(if present then 8 else 15, 0)])] } }

theorem witness_BlockWrites :
    (HostAdmits ready hdr ∧ memState ready 31 ≠ memFailed ∧ memState (fieldAs (aPbMemstat 3 7) 2 0 memFailed) 31 = memFailed ∧
      (1 : Word).getLsbD 0 = true) ∧
    (retestAllowed (fieldAs (aRngState 131) 2 0 rngDown) 131 = true ∧ retestAllowed (fieldAs (aRngState 131) 2 0 rngUp) 131 = false) ∧
    ((∀ v ∈ [260, 400], let w : Word := BitVec.ofNat 32 (17 * 65536 + 32768 + v)
      w.getLsbD 15 = true ∧ getF w 20 16 = 17 ∧ 260 ≤ getF w 8 0 ∧ getF w 8 0 ≤ 400) ∧
      (∀ v ∈ [259, 401], getF (BitVec.ofNat 32 (17 * 65536 + 32768 + v) : Word) 8 0 = v) ∧ lineActive ≠ lineHandover ∧
      (ready.bank 7).ho = none ∧ ({ ready with light := { ready.light with banks := [(7, { ho := some { line := 3, spare := 0 } })] } }.bank 7).ho ≠ none) ∧
    ((2 : Word).getLsbD 2 = false ∧ (2 : Word).getLsbD 0 = false ∧ (linkAt lnkUp {}).bit (aLnkCtl 15) 1 = false ∧
      ((linkAt lnkDown {}).setBit (aLnkState 15) 8 true).bit (aLnkState 15) 8 = true) ∧
    ((timerOf (timed 1) 31).isSome = true ∧ (∀ t, timerOf (timed 1) 31 = some t → t.left ≠ 0) ∧ ready.bit aFltStatus1 31 = false ∧
      (recordedFault true).bit aFltStatus1 31 = true ∧
      ∀ b, (recordedAt (recordedFault b) 31).any (causePresent (recordedFault b) 31) = b) ∧
    ((∀ x ∈ [(0, 11), (1, 11), (2, 31), (9, 0)], x.2 < injInstances x.1 ∧ injInstances x.1 ≤ x.2 + 1) ∧
      getF (BitVec.ofNat 32 (11 * 65536) : Word) 23 16 = 11) ∧
    (getF (264 : Word) 8 0 = 264 ∧ getF (0x80000107 : Word) 8 0 = 263 ∧ (0x80000107 : Word).getLsbD 31 = true ∧
      sensorBroken brokenSensor 263 = true) ∧
    ((0x8000000B : Word).getLsbD 31 = true ∧ (0x8000000B : Word).getLsbD 30 = false ∧ getF (0x8000000B : Word) 3 0 = 11 ∧
      (0x4000000B : Word).getLsbD 30 = true ∧ (0x4000000B : Word).getLsbD 31 = false ∧ ready.dieOp = none ∧ tdState ready 11 = tdServe ∧
      tdState (fieldAs (aTdState 11) 2 0 tdRetired) 11 = tdRetired ∧ domOn (fieldAs (aTdState 11) 2 0 tdRetired) 11 = true ∧
      (dieOpOf false true).dieOp.isSome = true ∧ savingOn ready 11 = false ∧
      savingOn ((setCtxState ready 63 ctxSaving).setFld (aHubCtxcfg 63) 11 0 0x800) 11 = true) ∧
    (getF (0xB0000000 : Word) 29 28 = 3 ∧ getF (0xA000FFFF : Word) 29 28 ≠ 3 ∧ ready.bit (aDbgReelctl 11) 31 = false ∧
      (hubFlag (aDbgReelctl 11) 31).bit (aDbgReelctl 11) 31 = true ∧ (hubFlag (aDbgReelctl 11) 31).fld (aDbgReelctl 11) 15 0 ≠ 1) ∧
    (ready.bit (aDbgTrigcap2 11) 31 = false ∧ (hubFlag (aDbgTrigcap2 11) 31).bit (aDbgTrigcap2 11) 31 = true) ∧
    (dumpArmed ready = false ∧ dumpBusy ready = false ∧ dumpArmed (hubFlag aDbgDumpctl 30) = true ∧ dumpBusy (hubFlag aDbgDumpctl 28) = true ∧
      dumpBaseOk ready = true ∧ dumpBaseOk (hubFlag aDbgDumpbase0 12) = false) := by
  refine ⟨⟨ready_admits, by decide +kernel⟩, by decide +kernel, by decide +kernel, by decide +kernel,
    ⟨by decide +kernel, fun t ht => ?_, by decide +kernel, by decide +kernel, by decide +kernel⟩, by decide +kernel, by decide +kernel,
    by decide +kernel, by decide +kernel, by decide +kernel, by decide +kernel⟩
  have e : timerOf (timed 1) 31 = some { code := 0x31, left := 1, scopes := [(2, 15)] } := by decide +kernel
  rw [e] at ht
  rw [← Option.some.inj ht]
  decide

/-! ### The spec's printed values -/

/-- CRC-32 and CRC-64 of "123456789" (R322, R153). -/
theorem test_crc32 : crc32 [0x31, 0x32, 0x33, 0x34, 0x35, 0x36, 0x37, 0x38, 0x39] = 0xCBF43926 := by decide +kernel
theorem test_crc64 : crc64 [0x31, 0x32, 0x33, 0x34, 0x35, 0x36, 0x37, 0x38, 0x39] = 0x6C40DF5F0B497347 := by decide +kernel

/-- A 1 by 1 MATMUL of K elements of one MX format at SRAM 0x1000 and 0x1080, with their scales at 0x2000 and 0x2080. -/
def example_ (k fmt flags : Nat) : MatDesc :=
  matDesc (desc [(1, 0x10), (5, 0x20), (8, 0x80), (9, 0x10), (12, 0x80), (13, 0x20), (24, k), (32, 1), (36, fmt), (37, flags), (39, 1)])

def operands (a w as ws : List Byte) : State :=
  (((ready.poke (sramPa 0 0x1000) a).poke (sramPa 0 0x1080) w).poke (sramPa 0 0x2000) as).poke (sramPa 0 0x2080) ws

def product (s : State) (m : MatDesc) : Option Int × List Byte × NumFlags :=
  (matAnchor s 0 m, matWriteBack m (matAnchor s 0 m) 0 0 (matAccumulate s 0 m (matAnchor s 0 m)))

/-- Worked example 1 of the numerics: E4M3, a tie, BF16 output. -/
theorem test_example1 :
    let s := operands [0x39, 0x18] [0x39, 0x18] [127] [127]
    (product s (example_ 32 0 0x10)).1 = some 26 ∧ (product s (example_ 32 0 0x10)).2.1 = [0xA2, 0x3F] := by decide +kernel

/-- Worked example 2: a block below the window; the exact result is 2¹⁰⁰ with TRUNC. -/
theorem test_example2 :
    let x : List Byte := [0x38] ++ zeros 31 ++ [0x3F]
    let s := operands x x [177, 80] [177, 80]
    (product s (example_ 64 0 0)).1 = some 126 ∧ (product s (example_ 64 0 0)).2.1 = [0x00, 0x00, 0x80, 0x71] ∧
      (matAccumulate s 0 (example_ 64 0 0) (some 126)).map (fun a => (a.acc, a.sticky)) = [(2 ^ 198 + 56, true)] := by decide +kernel

/-- Worked example 3: E2M1, three blocks; 0.5. -/
theorem test_example3 :
    let s := operands ([0x07] ++ zeros 15 ++ [0x01] ++ zeros 15 ++ [0x0F]) ([0x06] ++ zeros 15 ++ [0x02] ++ zeros 15 ++ [0x06])
      [147, 127, 147] [127, 127, 127]
    (product s (example_ 96 0x44 0)).1 = some 34 ∧ (product s (example_ 96 0x44 0)).2.1 = [0x00, 0x00, 0x00, 0x3F] ∧
      (matAccumulate s 0 (example_ 96 0x44 0) (some 34)).map (·.acc) = [2 ^ 189] := by decide +kernel

end Sys2Proof.Tests
end

/-! SUPPORT. Registers by address, accesses of them by the host and by I3C, and the statements about register accesses
(R6 to R12, R427, R552, R557 to R564). -/
namespace Sys2Proof.Machine

/-! ### The register map by address (R9, R552) -/

/-- One more than the largest offset that an array with these strides and counts reaches. -/
def dimsSpan : List (Nat × Nat) → Nat
  | [] => 1
  | (st, n) :: ds => (n - 1) * st + dimsSpan ds

/-- The rows of block `b` that can have an address of `[lo, hi)`. -/
def rowsNear (b lo hi : Nat) : List RegRow :=
  (regBlock b).filter fun r => decide (r.base < hi) && decide (lo < r.base + dimsSpan r.dims)

theorem lt_dimsSpan_of_inDims {ds : List (Nat × Nat)} {off : Nat} (h : inDims ds off = true) : off < dimsSpan ds := by
  induction ds generalizing off with
  | nil => simp_all [inDims, dimsSpan]
  | cons d ds ih =>
    obtain ⟨st, n⟩ := d
    simp only [inDims, Bool.and_eq_true, decide_eq_true_eq] at h
    have hr : off % st < dimsSpan ds := ih h.2
    have hq : st * (off / st) ≤ (n - 1) * st := by
      rw [Nat.mul_comm]; exact Nat.mul_le_mul_right st (Nat.le_sub_one_of_lt h.1)
    have := Nat.div_add_mod off st
    simp only [dimsSpan]; omega

theorem RegRow.bounds_of_has {r : RegRow} {a : Nat} (h : r.has a = true) :
    r.base ≤ a ∧ a < r.base + dimsSpan r.dims := by
  simp only [RegRow.has, Bool.and_eq_true, decide_eq_true_eq] at h
  have := lt_dimsSpan_of_inDims h.2
  omega

/-- Only the rows near an interval say which register an address of it names. -/
theorem regAt_eq_find_rowsNear {a lo hi : Nat} (hlo : lo ≤ a) (hhi : a < hi) :
    regAt a = (rowsNear (a / 0x1000000) lo hi).find? (·.has a) := by
  rw [regAt, rowsNear, List.find?_filter]
  congr 1
  funext r
  by_cases h : r.has a = true
  · obtain ⟨h1, h2⟩ := RegRow.bounds_of_has h
    have h3 : r.base < hi := by omega
    have h4 : lo < r.base + dimsSpan r.dims := by omega
    simp [h, h3, h4]
  · simp [h]

theorem regAt_eq_none_of_rowsNear {b a lo hi : Nat} (hn : rowsNear b lo hi = []) (hb : a / 0x1000000 = b) (hlo : lo ≤ a)
    (hhi : a < hi) : regAt a = none := by
  rw [regAt_eq_find_rowsNear hlo hhi, hb, hn]; rfl

theorem regAt_eq_some_of_rowsNear {b a lo hi : Nat} {r : RegRow} (hn : rowsNear b lo hi = [r]) (hb : a / 0x1000000 = b)
    (hlo : lo ≤ a) (hhi : a < hi) (hr : r.has a = true) : regAt a = some r := by
  rw [regAt_eq_find_rowsNear hlo hhi, hb, hn]
  exact List.find?_cons_of_pos hr

/-- TD12 to TD15, PB4 to PB15, LB8 to LB15 and every address from 0x0A00_0000 hold no register (R9, R552). -/
theorem regAt_eq_none_of_absent {a : Nat}
    (h : (0x1C00000 ≤ a ∧ a < 0x2000000) ∨ (0x2400000 ≤ a ∧ a < 0x3000000) ∨ (0x3080000 ≤ a ∧ a < 0x4000000) ∨ 0xA000000 ≤ a) :
    regAt a = none := by
  rcases h with ⟨h1, h2⟩ | ⟨h1, h2⟩ | ⟨h1, h2⟩ | h1
  · exact regAt_eq_none_of_rowsNear (b := 1) (by decide +kernel) (by omega) h1 h2
  · exact regAt_eq_none_of_rowsNear (b := 2) (by decide +kernel) (by omega) h1 h2
  · exact regAt_eq_none_of_rowsNear (b := 3) (by decide +kernel) (by omega) h1 h2
  · have hb : regBlock (a / 0x1000000) = [] := by
      obtain ⟨n, hn⟩ : ∃ n, a / 0x1000000 = n + 10 := ⟨a / 0x1000000 - 10, by omega⟩
      rw [hn]; rfl
    rw [regAt, hb]; rfl

/-- The guest firewall's block holds no register between its windows and the sync allowlist (R242). -/
theorem regAt_eq_none_below_syncallow {a : Nat} (hlo : 0x9000140 ≤ a) (hhi : a < 0x9000200) : regAt a = none :=
  regAt_eq_none_of_rowsNear (b := 9) (by decide +kernel) (by omega) hlo hhi

/-- The row of HUB_ATTREP. -/
def rowAttrep : RegRow := ⟨"HUB_ATTREP", 0xf00, [(0x4, 128)], .stbyro, [⟨"WORD", 31, 0, .ro, 0⟩]⟩

/-- The row of HUB_CERT. -/
def rowCert : RegRow := ⟨"HUB_CERT", 0x4000, [(0x4, 512)], .stbyro, [⟨"WORD", 31, 0, .ro, 0⟩]⟩

/-- The row of GFW_SYNCALLOW. -/
def rowSyncallow : RegRow := ⟨"GFW_SYNCALLOW", 0x9000200, [(0x4, 128)], .hub, [⟨"ALLOW", 31, 0, .rw, 0⟩]⟩

theorem regAt_attrep {i : Nat} (hi : i < 128) : regAt (aHubAttrep i) = some rowAttrep := by
  have hr : rowAttrep.has (aHubAttrep i) = true := by simp [RegRow.has, rowAttrep, inDims, aHubAttrep, hi]
  unfold aHubAttrep at hr ⊢
  exact regAt_eq_some_of_rowsNear (b := 0) (lo := 0xF00) (hi := 0x1100) (by decide +kernel) (by omega) (by omega) (by omega) hr

theorem regAt_cert {i : Nat} (hi : i < 512) : regAt (aHubCert i) = some rowCert := by
  have hr : rowCert.has (aHubCert i) = true := by simp [RegRow.has, rowCert, inDims, aHubCert, hi]
  unfold aHubCert at hr ⊢
  exact regAt_eq_some_of_rowsNear (b := 0) (lo := 0x4000) (hi := 0x4800) (by decide +kernel) (by omega) (by omega) (by omega) hr

theorem regAt_syncallow {i : Nat} (hi : i < 128) : regAt (aGfwSyncallow i) = some rowSyncallow := by
  have hr : rowSyncallow.has (aGfwSyncallow i) = true := by simp [RegRow.has, rowSyncallow, inDims, aGfwSyncallow, hi]
  unfold aGfwSyncallow at hr ⊢
  exact regAt_eq_some_of_rowsNear (b := 9) (lo := 0x9000200) (hi := 0x9000400) (by decide +kernel) (by omega) (by omega)
    (by omega) hr

/-! ### Accesses that are errors (R7, R552) -/

/-- No write of the address is taken: it is not aligned, no register is there, or only a read-only region. -/
def RefusesWrite (a : Nat) : Prop := a % 4 ≠ 0 ∨ ∀ r, regAt a = some r → r.home = .stbyro

theorem refusesWrite_of_none {a : Nat} (h : regAt a = none) : RefusesWrite a := .inr fun r hr => by simp [h] at hr

theorem refusesWrite_attrep {i : Nat} (hi : i < 128) : RefusesWrite (aHubAttrep i) := .inr fun r hr => by
  rw [regAt_attrep hi] at hr; cases hr; rfl

theorem refusesWrite_cert {i : Nat} (hi : i < 512) : RefusesWrite (aHubCert i) := .inr fun r hr => by
  rw [regAt_cert hi] at hr; cases hr; rfl

theorem refusesWrite_of_bad {a : Nat}
    (ha : (a % 4 ≠ 0 ∨ regAt a = none) ∨ ∃ i, (i < 128 ∧ a = aHubAttrep i) ∨ (i < 512 ∧ a = aHubCert i)) :
    RefusesWrite a := by
  rcases ha with (ha | ha) | ⟨i, ⟨hi, rfl⟩ | ⟨hi, rfl⟩⟩
  · exact .inl ha
  · exact refusesWrite_of_none ha
  · exact refusesWrite_attrep hi
  · exact refusesWrite_cert hi

theorem regWrite_refused (s : State) (q : Requester) {a : Nat} (v : Word) (x : WriteArg) (h : RefusesWrite a) :
    regWrite s q a v x = (accessFail s q a, false) := by
  unfold regWrite
  by_cases ha : a % 4 ≠ 0
  · rw [if_pos ha]
  · rw [if_neg ha]
    have hr := h.resolve_left ha
    cases hrow : regAt a with
    | none => rfl
    | some r => simp [hr r hrow]

theorem regRead_refused (s : State) (q : Requester) {a : Nat} (h : a % 4 ≠ 0 ∨ regAt a = none) :
    regRead s q a = (accessFail s q a, 0, false) := by
  unfold regRead
  by_cases ha : a % 4 ≠ 0
  · rw [if_pos ha]
  · rw [if_neg ha, h.resolve_left ha]

@[simp] theorem reports_accessFail (s : State) (q : Requester) (a : Nat) : (accessFail s q a).reports =
    s.reports ++ [{ accessError (masterOf q) with space := 4, addr := BitVec.ofNat 48 a }] := rfl

/-! ### What stays as it was -/

theorem State.byte_of_mem {s t : State} (h : t.mem = s.mem) (pa : Nat) : t.byte pa = s.byte pa := by
  rw [State.byte, State.byte, h]

theorem State.rd_of_regs {s t : State} (h : t.regs = s.regs) (a : Nat) : t.rd a = s.rd a := by
  rw [State.rd, State.rd, h]

theorem State.fld_of_rd {s t : State} {a : Nat} (h : t.rd a = s.rd a) (hi lo : Nat) : t.fld a hi lo = s.fld a hi lo := by
  rw [State.fld, State.fld, h]

theorem State.bit_of_rd {s t : State} {a : Nat} (h : t.rd a = s.rd a) (b : Nat) : t.bit a b = s.bit a b := by
  rw [State.bit, State.bit, h]

theorem rd_accepted_ne (s : State) (h : HostHdr) {a : Nat} (ha : a ≠ aHlkAccept h.ch) : (accepted s h).rd a = s.rd a :=
  State.rd_count_ne _ _ _ _ (Ne.symm ha)


@[simp] theorem bootState_accepted (s : State) (h : HostHdr) : bootState (accepted s h) = bootState s := by
  refine State.fld_of_rd (rd_accepted_ne s h ?_) 31 28
  unfold aHubBoot aHlkAccept; omega

@[simp] theorem ctxPrivileged_accepted (s : State) (h : HostHdr) (ch : ChanId) :
    ctxPrivileged (accepted s h) ch = ctxPrivileged s ch := by
  rw [ctxPrivileged, ctxPrivileged, State.bit_of_rd (rd_accepted_ne s h ?_)]
  unfold aDbgChpriv aHlkAccept; omega

/-- The domains' registers lie below the accept counts. -/
theorem domOn_accepted (s : State) (h : HostHdr) {d : Nat} (hd : d < 0x700000) : domOn (accepted s h) d = domOn s d := by
  rw [domOn, domOn, State.fld_of_rd (rd_accepted_ne s h ?_)]
  unfold aTpDom aHlkAccept; omega

theorem regOn_accepted (s : State) (h : HostHdr) (r : RegRow) {a : Nat} (ha : a < 2 ^ 32) :
    regOn (accepted s h) r a = regOn s r a := by
  unfold regOn
  cases r.home with
  | stby | stbyro => rfl
  | hub | hubcopy => exact domOn_accepted s h (by decide)
  | light => exact domOn_accepted s h (by decide)
  | pb => exact domOn_accepted s h (by omega)
  | td =>
    refine domOn_accepted s h ?_
    unfold regDie
    split <;> omega

/-! ### Admitted host messages (R426, R434, R444, R528) -/

/-- An admitted message is accepted and applied. -/
theorem hostCmd_of_admits {s : State} {h : HostHdr} (ha : HostAdmits s h) (kind : Byte) (k : HostKind) (go : State → State) :
    hostCmd s h kind k go = go (accepted s h) := by
  obtain ⟨hopen, hx, hrsvd, hch, hpriv, hboot⟩ := ha
  have hnone : hostRefusal (accepted s h) h k = none := by
    have hx' : ¬ h.x15 ≠ (accepted s h).x15Host := fun hne => hne hx
    have hf : ¬ (h.rsvd ≠ 0 ∨ h.chField ≠ h.ch) := by simp [hrsvd, hch]
    unfold hostRefusal
    rw [if_neg hx', if_neg hf]
    cases k <;> simp [hpriv, hboot]
  have hrefusal : hostRefusal (s.count (aHlkAccept h.ch) 31 0 1) h k = none := hnone
  simp only [hostCmd, hopen, hrefusal]
  rfl

/-- The host may access registers on the channel: it is not context-privileged, the module is READY, and the hub is on. -/
def AdmitsAccess (s : State) (ch : ChanId) : Prop :=
  ctxPrivileged s ch = false ∧ bootState s = bootReady ∧ domOn s 16 = true

theorem admitsAccess_accepted {s : State} {h : HostHdr} (ha : HostAdmits s h) : AdmitsAccess (accepted s h) h.ch := by
  obtain ⟨hopen, -, -, -, hpriv, hboot⟩ := ha
  simp only [hostOpen, Bool.and_eq_true] at hopen
  obtain ⟨⟨hhub, -⟩, -⟩ := hopen
  refine ⟨by simpa using hpriv, by simpa using hboot, ?_⟩
  rwa [domOn_accepted s h (by decide)]

/-- The access right rests on three registers. -/
theorem AdmitsAccess.of_rd {s t : State} {ch : ChanId} (hs : AdmitsAccess s ch)
    (h : ∀ a ∈ [aDbgChpriv, aHubBoot, aTpDom 16], t.rd a = s.rd a) : AdmitsAccess t ch := by
  rw [AdmitsAccess, ctxPrivileged, bootState, domOn] at hs ⊢
  rwa [State.bit_of_rd (h aDbgChpriv (by simp)), State.fld_of_rd (h aHubBoot (by simp)),
    State.fld_of_rd (h (aTpDom 16) (by simp))]

theorem AdmitsAccess.of_regs {s t : State} {ch : ChanId} (hs : AdmitsAccess s ch) (h : t.regs = s.regs) : AdmitsAccess t ch :=
  hs.of_rd fun a _ => State.rd_of_regs h a

theorem AdmitsAccess.wr_syncallow {s : State} {ch : ChanId} (hs : AdmitsAccess s ch) (i : Nat) (v : Word) :
    AdmitsAccess (s.wr (aGfwSyncallow i) v) ch := by
  refine hs.of_rd fun a ha => State.rd_wr_ne _ _ ?_
  simp only [List.mem_cons, List.not_mem_nil, or_false, aDbgChpriv, aHubBoot, aTpDom] at ha
  unfold aGfwSyncallow; omega

theorem hostRegRefusal_of_admits {s : State} {ch : ChanId} (hs : AdmitsAccess s ch) (a : Nat) (wr : Bool) :
    hostRegRefusal s ch a wr = none := by
  obtain ⟨hpriv, hboot, -⟩ := hs
  simp [hostRegRefusal, hpriv, hboot, bootReady, bootNoImage, bootFaulted, bootQuiescing]

/-! ### A register is read (R12, R564) -/

theorem mem_callClear (s : State) (d : DieId) (k : CallerId) (o : Nat) : (callClear s d k o).mem = s.mem := by
  unfold callClear
  dsimp only
  split
  · rfl
  · split <;> rfl

theorem mem_readClear (s : State) (r : RegRow) (a : Nat) : (readClear s r a).mem = s.mem := by
  unfold readClear
  dsimp only
  split
  · exact mem_callClear _ _ _ _
  · split
    · rfl
    · split <;> rfl

theorem mem_hubCheck (s : State) (j a : Nat) : (s.hubCheck j a).mem = s.mem := by
  unfold State.hubCheck
  split <;> rfl

theorem mem_checkEntry (s : State) (i a : Nat) : (checkEntry s i a).mem = s.mem := by
  unfold checkEntry
  dsimp only
  split
  · rfl
  · split <;> split
    case isTrue.isTrue | isFalse.isTrue => rfl
    case isTrue.isFalse | isFalse.isFalse => split <;> rfl

theorem mem_readCheck (s : State) (a : Nat) : (readCheck s a).mem = s.mem := by
  unfold readCheck
  split
  · exact mem_hubCheck _ _ _
  split
  · exact mem_hubCheck _ _ _
  split
  · exact mem_checkEntry _ _ _
  split
  · exact mem_checkEntry _ _ _
  · rfl

theorem mem_latchRead (s : State) (q : Requester) (a : Nat) : (latchRead s q a).1.mem = s.mem := by
  unfold latchRead
  split
  · rfl
  · split
    · split <;> rfl
    · rfl

theorem latchRead_value_of_none {s : State} {q : Requester} (a : Nat) (hl : latchOf s q = none) :
    (latchRead s q a).2 = regView s a := by
  unfold latchRead
  split
  · rfl
  · rw [hl]

/-- A read of a register whose holder has power, with nothing latched, gives its present value and leaves memory alone. -/
theorem regRead_of_on {s : State} {q : Requester} {a : Nat} {r : RegRow} (ha : a % 4 = 0) (hr : regAt a = some r)
    (hon : regOn s r a = true) (hl : latchOf s q = none) :
    ∃ u, regRead s q a = (u, rcView s r a (regView s a), true) ∧ u.mem = s.mem := by
  refine ⟨readCheck (readClear (latchRead s q a).1 r a) a, ?_, ?_⟩
  · rw [regRead, if_neg (fun hne => hne ha), hr]
    simp only [hon]
    rw [← latchRead_value_of_none a hl]
    rfl
  · rw [mem_readCheck, mem_readClear, mem_latchRead]

/-! ### A register is written -/

/-- A plain write of a word that is RW throughout stores the value. -/
theorem plainWrite_of_rw (s : State) {r : RegRow} (a : Nat) (v : Word) (hrw : r.mask .rw = BitVec.allOnes 32)
    (hw1c : r.mask .w1c = 0) : plainWrite s r a v = s.wr a v := by
  rw [plainWrite, hrw, hw1c, BitVec.and_allOnes, BitVec.not_allOnes]
  simp

theorem regWrite_syncallow {s : State} (q : Requester) {i : Nat} (v : Word) (x : WriteArg) (hon : domOn s 16 = true)
    (hi : i < 128) : regWrite s q (aGfwSyncallow i) v x = (s.wr (aGfwSyncallow i) v, true) := by
  have hblock : writeBlock s rowSyncallow (aGfwSyncallow i) v x = some (s.wr (aGfwSyncallow i) v) := by
    have hb : aGfwSyncallow i / 0x1000000 = 9 := by unfold aGfwSyncallow; omega
    have h1 : aGfwSyncallow i ≠ aGfwCtl := by unfold aGfwSyncallow aGfwCtl; omega
    have h2 : aGfwSyncallow i ≠ aGfwShare := by unfold aGfwSyncallow aGfwShare; omega
    have h3 : ¬ (aGfwWin0 0 ≤ aGfwSyncallow i ∧ aGfwSyncallow i < aGfwWin0 8) := by
      unfold aGfwSyncallow aGfwWin0; omega
    rw [writeBlock, hb]
    simp only [writeGfw, if_neg h1, if_neg h2, if_neg h3]
    rw [plainWrite_of_rw s _ v (by decide) (by decide)]
  have ha : ¬ aGfwSyncallow i % 4 ≠ 0 := by unfold aGfwSyncallow; omega
  have htd : aGfwSyncallow i ≠ aTpTdctl := by unfold aGfwSyncallow aTpTdctl; omega
  have hro : rowSyncallow.home ≠ .stbyro := by decide
  have hon' : regOn s rowSyncallow (aGfwSyncallow i) = true := hon
  rw [regWrite, if_neg ha, regAt_syncallow hi]
  simp only [if_neg hro, hon', if_neg htd, hblock]
  rfl

/-- What a write brings changes neither registers nor memory nor reports. -/
theorem freeArg_keeps (s : State) (a : Nat) :
    (freeArg s a).1.regs = s.regs ∧ (freeArg s a).1.mem = s.mem ∧ (freeArg s a).1.reports = s.reports := by
  unfold freeArg
  split <;> exact ⟨rfl, rfl, rfl⟩

theorem freeArg_syncallow (s : State) (i : Nat) : freeArg s (aGfwSyncallow i) = (s, {}) := by
  unfold freeArg
  refine if_neg ?_
  unfold aGfwSyncallow aGfwCtl
  omega

theorem hostWriteOne_syncallow {s : State} {ch : ChanId} (hs : AdmitsAccess s ch) {i : Nat} (hi : i < 128) (v : Word)
    (x : WriteArg) : hostWriteOne s ch (aGfwSyncallow i) v x = (s.wr (aGfwSyncallow i) v, .ok) := by
  have hrefusal := hostRegRefusal_of_admits hs (aGfwSyncallow i) true
  obtain ⟨-, -, hhub⟩ := hs
  rw [hostWriteOne, hrefusal, regWrite_syncallow (.host ch) v x hhub hi]

theorem hostWriteOne_refused {s : State} {ch : ChanId} (hs : AdmitsAccess s ch) {a : Nat} (ha : RefusesWrite a) (v : Word)
    (x : WriteArg) : hostWriteOne s ch a v x = (accessFail s (.host ch) a, .access) := by
  rw [hostWriteOne, hostRegRefusal_of_admits hs, regWrite_refused s (.host ch) v x ha]

theorem asksWarm_syncallow (i : Nat) (v : Word) : asksWarm (aGfwSyncallow i) v = false := by
  have : aGfwSyncallow i ≠ aHubRst := by unfold aGfwSyncallow aHubRst; omega
  simp [asksWarm, this]

/-! ### The data of a REG_WRB (R562) -/

theorem length_dataWords (data : List Byte) : (dataWords data).length = data.length / 4 := by
  induction data using dataWords.induct with
  | case1 b₀ b₁ b₂ b₃ bs ih => simp only [dataWords, List.length_cons, ih]; omega
  | case2 bs hbs =>
    match bs, hbs with
    | [], _ | [_], _ | [_, _], _ | [_, _, _], _ => simp [dataWords]
    | b₀ :: b₁ :: b₂ :: b₃ :: bs, hbs => exact absurd rfl (hbs b₀ b₁ b₂ b₃ bs)

/-- Word `j` of the data is little-endian. -/
theorem toNat_getElem_dataWords (data : List Byte) (j : Nat) (hj : j < (dataWords data).length) :
    (dataWords data)[j].toNat = fieldAt data (4 * j) 4 := by
  induction data using dataWords.induct generalizing j with
  | case1 b₀ b₁ b₂ b₃ bs ih =>
    cases j with
    | zero =>
      simp only [dataWords, List.getElem_cons_zero, fieldAt, Nat.mul_zero, List.drop_zero, List.take_succ_cons, List.take_zero,
        leNat, BitVec.toNat_append]
      have h0 := b₀.isLt
      have h1 := b₁.isLt
      have h2 := b₂.isLt
      rw [← Nat.shiftLeft_add_eq_or_of_lt h0, ← Nat.shiftLeft_add_eq_or_of_lt h1, ← Nat.shiftLeft_add_eq_or_of_lt h2]
      simp only [Nat.shiftLeft_eq]
      omega
    | succ j =>
      simp only [dataWords, List.length_cons, Nat.add_lt_add_iff_right] at hj
      simp only [dataWords, List.getElem_cons_succ, ih j hj]
      rfl
  | case2 bs hbs => simp [dataWords] at hj

/-! ### The writes of a REG_WRB (R562) -/

/-- Consecutive registers from `a` written in order. -/
def State.wrWords (s : State) : Nat → List Word → State
  | _, [] => s
  | a, v :: vs => (s.wr a v).wrWords (a + 4) vs

theorem State.mem_wrWords (s : State) (a : Nat) (vs : List Word) : (s.wrWords a vs).mem = s.mem := by
  induction vs generalizing s a with
  | nil => rfl
  | cons v vs ih => rw [State.wrWords, ih]; rfl

theorem State.rd_wrWords_ne (s : State) {a b : Nat} {vs : List Word} (h : ∀ j < vs.length, a + 4 * j ≠ b) :
    (s.wrWords a vs).rd b = s.rd b := by
  induction vs generalizing s a with
  | nil => rfl
  | cons v vs ih =>
    have hb : a ≠ b := h 0 (by simp)
    rw [State.wrWords, ih, State.rd_wr_ne _ _ hb]
    intro j hj
    have := h (j + 1) (by simpa using hj)
    omega

theorem State.rd_wrWords (s : State) (a : Nat) (vs : List Word) (j : Nat) (hj : j < vs.length) :
    (s.wrWords a vs).rd (a + 4 * j) = vs[j] := by
  induction vs generalizing s a j with
  | nil => simp at hj
  | cons v vs ih =>
    rw [State.wrWords]
    cases j with
    | zero =>
      rw [State.rd_wrWords_ne _ (fun i _ => by omega)]
      simp
    | succ j =>
      have := ih (s.wr a v) (a + 4) j (by simpa using hj)
      rwa [show a + 4 + 4 * j = a + 4 * (j + 1) by omega] at this

theorem writeRun_append (ch : ChanId) (r : WrbRun) (a : Nat) (us vs : List Word) :
    writeRun ch r a (us ++ vs) = writeRun ch (writeRun ch r a us) (a + 4 * us.length) vs := by
  induction us generalizing r a with
  | nil => rfl
  | cons u us ih =>
    simp only [List.cons_append, writeRun, ih, List.length_cons]
    congr 1
    omega

/-- Words of the sync allowlist are all written. -/
theorem writeRun_syncallow {ch : ChanId} {r : WrbRun} (hs : AdmitsAccess r.s ch) {i : Nat} {vs : List Word}
    (hi : i + vs.length ≤ 128) :
    writeRun ch r (aGfwSyncallow i) vs = { r with s := r.s.wrWords (aGfwSyncallow i) vs } := by
  induction vs generalizing r i with
  | nil => rfl
  | cons v vs ih =>
    rw [List.length_cons] at hi
    have hnext : aGfwSyncallow i + 4 = aGfwSyncallow (i + 1) := by unfold aGfwSyncallow; omega
    simp only [writeRun, freeArg_syncallow, hostWriteOne_syncallow hs (show i < 128 by omega), asksWarm_syncallow, hnext,
      if_true, Bool.and_false, Bool.or_false]
    rw [ih (r := { r with s := r.s.wr (aGfwSyncallow i) v }) (hs.wr_syncallow i v) (by omega), State.wrWords, hnext]

/-- What a refused write at `a` leaves of a run: the access error, and the failure if it is the first. -/
def WrbRun.refuse (r : WrbRun) (ch : ChanId) (a : Nat) : WrbRun :=
  { r with s := accessFail (freeArg r.s a).1 (.host ch) a, fail := r.fail.orElse fun _ => some (.access, a) }

theorem writeRun_cons_refused {ch : ChanId} {r : WrbRun} (hs : AdmitsAccess r.s ch) {a : Nat} (ha : RefusesWrite a) (v : Word)
    (vs : List Word) : writeRun ch r a (v :: vs) = writeRun ch (r.refuse ch a) (a + 4) vs := by
  obtain ⟨hregs, -, -⟩ := freeArg_keeps r.s a
  simp [writeRun, hostWriteOne_refused (hs.of_regs hregs) ha, WrbRun.refuse]

/-- Words that are all refused change no register and no byte, and the first of them is the first failure. -/
theorem writeRun_refused {ch : ChanId} {r : WrbRun} (hs : AdmitsAccess r.s ch) {a : Nat} {vs : List Word}
    (ha : ∀ j < vs.length, RefusesWrite (a + 4 * j)) :
    ∃ t : State, t.regs = r.s.regs ∧ t.mem = r.s.mem ∧ writeRun ch r a vs =
      { r with s := t, fail := if vs = [] then r.fail else r.fail.orElse fun _ => some (.access, a) } := by
  induction vs generalizing r a with
  | nil => exact ⟨r.s, rfl, rfl, rfl⟩
  | cons v vs ih =>
    obtain ⟨hregs, hmem, -⟩ := freeArg_keeps r.s a
    have hrest : ∀ j < vs.length, RefusesWrite (a + 4 + 4 * j) := fun j hj => by
      have := ha (j + 1) (by simpa using hj)
      rwa [show a + 4 + 4 * j = a + 4 * (j + 1) by omega]
    obtain ⟨t, htregs, htmem, ht⟩ := ih (r := r.refuse ch a) (hs.of_regs hregs) hrest
    refine ⟨t, htregs.trans hregs, htmem.trans hmem, ?_⟩
    rw [writeRun_cons_refused (a := a) hs (ha 0 (by simp)), ht]
    cases hf : r.fail <;> simp [WrbRun.refuse, hf]

theorem hostRegBurst_of_run {s t : State} {h : HostHdr} {a : Nat} {data : List Byte} (hs : AdmitsAccess s h.ch)
    (h4 : data.length % 4 = 0) (hlen : data.length ≤ 2048)
    (hrun : writeRun h.ch { s := s } a (dataWords data) = { s := t }) :
    hostRegBurst s h a data = t.complete (keyOf h) kRegWrb 0 .ok 0 [] := by
  obtain ⟨hpriv, -, -⟩ := hs
  have hfmt : ¬ (data.length % 4 ≠ 0 ∨ data.length > 2048) := by omega
  rw [hostRegBurst, if_neg hfmt, hpriv, hrun]
  rfl

theorem hostRegBurst_of_failed_run {s t : State} {h : HostHdr} {a b : Nat} {data : List Byte} {st : Status}
    (hs : AdmitsAccess s h.ch) (h4 : data.length % 4 = 0) (hlen : data.length ≤ 2048)
    (hrun : writeRun h.ch { s := s } a (dataWords data) = { s := t, fail := some (st, b) }) :
    hostRegBurst s h a data = t.complete (keyOf h) kRegWrb 0 st (BitVec.ofNat 48 b) [] := by
  obtain ⟨hpriv, -, -⟩ := hs
  have hfmt : ¬ (data.length % 4 ≠ 0 ∨ data.length > 2048) := by omega
  rw [hostRegBurst, if_neg hfmt, hpriv, hrun]
  rfl

/-! ### The register commands of an admitted message -/

theorem exec_regRd_of_admits {h : HostHdr} {s t : State} {addr v : Word} {ok : Bool} (hadm : HostAdmits s h)
    (hread : regRead (accepted s h) (.host h.ch) addr.toNat = (t, v, ok)) :
    exec (.regRd h addr) s =
      .next (t.complete (keyOf h) kRegRd 0 (if ok then .ok else .access) (v.zeroExtend 48) []) := by
  have hexec : exec (.regRd h addr) s = .next (hostCmd s h kRegRd .reg fun s => hostRegRead s h addr.toNat) := rfl
  rw [hexec, hostCmd_of_admits hadm, hostRegRead, hostRegRefusal_of_admits (admitsAccess_accepted hadm), hread]

theorem exec_regWr_of_admits {h : HostHdr} {s : State} (hadm : HostAdmits s h) (addr v : Word) :
    exec (.regWr h addr v) s = .next
      (hostRegWrite (freeArg (accepted s h) addr.toNat).1 h addr.toNat v (freeArg (accepted s h) addr.toNat).2) := by
  have hexec : exec (.regWr h addr v) s = .next (hostCmd s h kRegWr .reg fun s =>
    hostRegWrite (freeArg s addr.toNat).1 h addr.toNat v (freeArg s addr.toNat).2) := rfl
  rw [hexec, hostCmd_of_admits hadm]

theorem exec_regWrb_of_admits {h : HostHdr} {s : State} (hadm : HostAdmits s h) (addr : Word) (data : List Byte) :
    exec (.regWrb h addr data) s = .next (hostRegBurst (accepted s h) h addr.toNat data) := by
  have hexec : exec (.regWrb h addr data) s = .next (hostCmd s h kRegWrb .reg fun s => hostRegBurst s h addr.toNat data) := rfl
  rw [hexec, hostCmd_of_admits hadm]

theorem toNat_ofNat_syncallow {i : Nat} (hi : i ≤ 128) : (BitVec.ofNat 32 (aGfwSyncallow i)).toNat = aGfwSyncallow i := by
  rw [BitVec.toNat_ofNat]
  exact Nat.mod_eq_of_lt (by unfold aGfwSyncallow; omega)

/-- Words written to the sync allowlist from word `i` leave every other register and memory. -/
theorem keeps_wrWords_syncallow (s : State) (i n : Nat) {vs : List Word} (hn : vs.length = n) :
    Keeps s (s.wrWords (aGfwSyncallow i) vs) ((List.range n).map fun j => aGfwSyncallow (i + j)) := by
  refine ⟨fun a ha => State.rd_wrWords_ne s fun j hj he => ha ?_, State.byte_of_mem (State.mem_wrWords s _ vs)⟩
  refine List.mem_map.2 ⟨j, List.mem_range.2 (hn ▸ hj), ?_⟩
  rw [← he]; unfold aGfwSyncallow; omega

theorem toNat_rd_wrWords_syncallow (s : State) (i : Nat) {data : List Byte} {m n : Nat} {vs : List Word} (hn : vs.length = n)
    (hvs : ∀ j (hj : j < vs.length), vs[j].toNat = fieldAt data (4 * (m + j)) 4) :
    ∀ j, j < n → ((s.wrWords (aGfwSyncallow i) vs).rd (aGfwSyncallow (i + j))).toNat = fieldAt data (4 * (m + j)) 4 := by
  intro j hj
  have hja : aGfwSyncallow (i + j) = aGfwSyncallow i + 4 * j := by unfold aGfwSyncallow; omega
  rw [hja, State.rd_wrWords s _ vs j (hn ▸ hj), hvs j (hn ▸ hj)]

/-! ### REG_RD, REG_WR and REG_WRB (R12, R427, R562, R564) -/

theorem regRd_of_on {h : HostHdr} {addr : Word} {r : RegRow} {s : State} (hadm : HostAdmits s h) (ha : addr.toNat % 4 = 0)
    (hr : regAt addr.toNat = some r) (hon : regOn s r addr.toNat = true) (hl : latchOf s (.host h.ch) = none) :
    ∃ u, AnswersOk (.regRd h addr) s u h kRegRd 0
        ((rcView (accepted s h) r addr.toNat (regView (accepted s h) addr.toNat)).zeroExtend 48) [] ∧ KeepsMemory s u := by
  rw [← regOn_accepted s h r addr.isLt] at hon
  obtain ⟨u, hread, hmem⟩ := regRead_of_on (s := accepted s h) ha hr hon hl
  refine ⟨u, ?_, State.byte_of_mem (s := s) hmem⟩
  exact exec_regRd_of_admits hadm hread

theorem regWr_syncallow {h : HostHdr} {s : State} (hadm : HostAdmits s h) {i : Nat} (hi : i < 128) (v : Word) :
    AnswersOk (.regWr h (BitVec.ofNat 32 (aGfwSyncallow i)) v) s ((accepted s h).wr (aGfwSyncallow i) v) h kRegWr 0 0 [] := by
  rw [AnswersOk, exec_regWr_of_admits hadm, toNat_ofNat_syncallow (Nat.le_of_lt hi), freeArg_syncallow, hostRegWrite,
    hostWriteOne_syncallow (admitsAccess_accepted hadm) hi]
  simp only [asksWarm_syncallow, Bool.and_false]
  rfl

theorem regWrb_syncallow {h : HostHdr} {s : State} (hadm : HostAdmits s h) {i n : Nat} {data : List Byte}
    (hlen : data.length = 4 * n) (hi : i + n ≤ 128) :
    ∃ u, AnswersOk (.regWrb h (BitVec.ofNat 32 (aGfwSyncallow i)) data) s u h kRegWrb 0 0 [] ∧
      (∀ j, j < n → (u.rd (aGfwSyncallow (i + j))).toNat = fieldAt data (4 * j) 4) ∧
      Keeps (accepted s h) u ((List.range n).map fun j => aGfwSyncallow (i + j)) := by
  have hn : (dataWords data).length = n := by rw [length_dataWords]; omega
  refine ⟨(accepted s h).wrWords (aGfwSyncallow i) (dataWords data), ?_, ?_, keeps_wrWords_syncallow _ i n hn⟩
  · have hacc := admitsAccess_accepted hadm
    have hrun := writeRun_syncallow (r := { s := accepted s h }) hacc (hn ▸ hi)
    rw [AnswersOk, exec_regWrb_of_admits hadm, toNat_ofNat_syncallow (by omega),
      hostRegBurst_of_run hacc (by omega) (by omega) hrun]
  · simpa using toNat_rd_wrWords_syncallow (accepted s h) i (m := 0) hn (by simpa using toNat_getElem_dataWords data)

/-- The registers just below the sync allowlist are not there: the words for them fail, those for the allowlist are written. -/
theorem regWrb_below_syncallow {h : HostHdr} {s : State} (hadm : HostAdmits s h) {m n : Nat} {data : List Byte}
    (hlen : data.length = 4 * (m + n)) (hm : 1 ≤ m) (hm' : m ≤ 48) (hn : n ≤ 128) :
    ∃ u : State, exec (.regWrb h (BitVec.ofNat 32 (aGfwSyncallow 0 - 4 * m)) data) s =
        .next (u.complete (keyOf h) kRegWrb 0 .access (BitVec.ofNat 48 (aGfwSyncallow 0 - 4 * m)) []) ∧
      Keeps (accepted s h) u ((List.range n).map aGfwSyncallow) ∧
      ∀ j, j < n → (u.rd (aGfwSyncallow j)).toNat = fieldAt data (4 * (m + j)) 4 := by
  have hws : (dataWords data).length = m + n := by rw [length_dataWords]; omega
  have hbase : aGfwSyncallow 0 = 0x9000200 := rfl
  generalize hfirst : aGfwSyncallow 0 - 4 * m = first
  have haddr : (BitVec.ofNat 32 first).toNat = first := by
    rw [BitVec.toNat_ofNat]; exact Nat.mod_eq_of_lt (by omega)
  have hus : ((dataWords data).take m).length = m := by simp [hws]
  have hvs : ((dataWords data).drop m).length = n := by simp [hws]
  have hacc := admitsAccess_accepted hadm
  obtain ⟨t, hregs, hmem, hrun⟩ := writeRun_refused (ch := h.ch) (r := { s := accepted s h }) hacc (a := first)
    (vs := (dataWords data).take m) fun j hj =>
      refusesWrite_of_none (regAt_eq_none_below_syncallow (by omega) (by omega))
  rw [if_neg (List.ne_nil_of_length_pos (by omega))] at hrun
  have hall : writeRun h.ch { s := accepted s h } first (dataWords data) =
      { s := t.wrWords (aGfwSyncallow 0) ((dataWords data).drop m), fail := some (.access, first) } := by
    have hsplit : writeRun h.ch { s := accepted s h } first (dataWords data) =
        writeRun h.ch { s := accepted s h } first ((dataWords data).take m ++ (dataWords data).drop m) := by
      rw [List.take_append_drop]
    rw [hsplit, writeRun_append, hrun, hus, show first + 4 * m = aGfwSyncallow 0 by omega,
      writeRun_syncallow (hacc.of_regs hregs) (by omega)]
    rfl
  refine ⟨t.wrWords (aGfwSyncallow 0) ((dataWords data).drop m), ?_, ?_, ?_⟩
  · rw [exec_regWrb_of_admits hadm, haddr, hostRegBurst_of_failed_run hacc (by omega) (by omega) hall]
  · obtain ⟨hrd, hbyte⟩ := keeps_wrWords_syncallow t 0 n hvs
    simp only [Nat.zero_add] at hrd
    exact ⟨fun a ha => (hrd a ha).trans (State.rd_of_regs hregs a), fun pa => (hbyte pa).trans (State.byte_of_mem hmem pa)⟩
  · simpa using toNat_rd_wrWords_syncallow t 0 hvs fun j hj => by
      rw [List.getElem_drop, toNat_getElem_dataWords]

/-- Settles O9: each command by the lemma about it, the bursts by induction over their words. -/
theorem registerAccess : Obligations.RegisterAccess := by
  unfold Obligations.RegisterAccess
  exact ⟨fun h addr r s hadm ha hr hon hl => regRd_of_on hadm ha hr hon hl,
    fun h i v s hadm => regWr_syncallow hadm i.isLt v,
    fun h i n data s hadm hlen hi => regWrb_syncallow hadm hlen hi,
    fun h m n data s hadm hlen hm hm' hn => regWrb_below_syncallow hadm hlen hm hm' hn⟩

/-! ### Access errors (R7, R552, R558, R559) -/

theorem regRd_refused {h : HostHdr} {addr : Word} {s : State} (hadm : HostAdmits s h)
    (hbad : addr.toNat % 4 ≠ 0 ∨ regAt addr.toNat = none) :
    exec (.regRd h addr) s =
      .next ((accessFail (accepted s h) (.host h.ch) addr.toNat).complete (keyOf h) kRegRd 0 .access 0 []) := by
  exact exec_regRd_of_admits hadm (regRead_refused _ _ hbad)

theorem regWr_refused {h : HostHdr} {addr : Word} {s : State} (v : Word) (hadm : HostAdmits s h)
    (hbad : RefusesWrite addr.toNat) :
    ∃ u : State, exec (.regWr h addr v) s = .next (u.complete (keyOf h) kRegWr 0 .access 0 []) ∧
      u.regs = (accepted s h).regs ∧ u.mem = s.mem ∧
      u.reports = s.reports ++ [{ accessError 9 with space := 4, addr := BitVec.ofNat 48 addr.toNat }] := by
  obtain ⟨hregs, hmem, hreports⟩ := freeArg_keeps (accepted s h) addr.toNat
  refine ⟨accessFail (freeArg (accepted s h) addr.toNat).1 (.host h.ch) addr.toNat, ?_, hregs, hmem, ?_⟩
  · rw [exec_regWr_of_admits hadm, hostRegWrite,
      hostWriteOne_refused ((admitsAccess_accepted hadm).of_regs hregs) hbad]
    rfl
  · rw [reports_accessFail, hreports]
    rfl

theorem i3cWrite_unaligned {addr : Word} (v : Word) {s : State} (hon : s.boot.island = true) (ha : addr.toNat % 4 ≠ 0) :
    exec (.i3cWrite addr v) s = .next (setPtr (accessFail s .i3c addr.toNat) (addr + 4)) := by
  have hexec : exec (.i3cWrite addr v) s =
    .next (if s.boot.island then setPtr (i3cPut s addr.toNat v) (addr + 4) else s) := rfl
  rw [hexec, if_pos hon, i3cPut, if_pos ha]

theorem i3cRead_unaligned {s : State} (hon : s.boot.island = true) (ha : s.pins.i3cPtr.toNat % 4 ≠ 0) :
    exec .i3cRead s = .next (setI3cOut (accessFail s .i3c s.pins.i3cPtr.toNat) 0 2) := by
  have hexec : exec .i3cRead s = .next (if s.boot.island then i3cGet s else s) := rfl
  rw [hexec, if_pos hon, i3cGet, if_pos ha]

/-- Settles O10: every access of such an address comes down to `regRead_refused` and `regWrite_refused`. -/
theorem accessErrors : Obligations.AccessErrors := by
  unfold Obligations.AccessErrors
  refine ⟨fun a ha => .inr (regAt_eq_none_of_absent ha), fun s q a ha => regRead_refused s q ha,
    fun s q a v x ha => regWrite_refused s q v x (refusesWrite_of_bad ha), fun h addr s hadm hbad => regRd_refused hadm hbad,
    fun h addr v s hadm hbad => regWr_refused v hadm (refusesWrite_of_bad hbad), fun addr v s hon ha => ⟨?_, ?_⟩⟩
  · exact ⟨_, i3cWrite_unaligned v hon ha, rfl, rfl, rfl⟩
  · rintro rfl
    exact ⟨_, i3cRead_unaligned hon ha, rfl, rfl, rfl, rfl⟩

end Sys2Proof.Machine
